-- ==== Sys2Proof/Word.lean ====
section
/-! DEFINITION. The word types of the device (R10, R17: 64-bit registers, bytes in little-endian order) and the
plainest views of a number as bits. -/
namespace Sys2Proof

/-- One byte. -/
abbrev Byte := BitVec 8
/-- An instruction word or half register. -/
abbrev Word32 := BitVec 32
/-- A register, a scalar of the control core, a CSR. -/
abbrev Word64 := BitVec 64
/-- A register number of the control core (R166). -/
abbrev RegNo := BitVec 5

/-- Bits `[lo + len - 1 : lo]` of a number (R6). -/
def bitsOf (w lo len : Nat) : Nat := (w >>> lo) % 2 ^ len

/-- Bit `lo` of a number (R6). -/
def bitOf (w lo : Nat) : Bool := (w >>> lo) % 2 == 1

/-- A Boolean as the number 0 or 1. -/
def b2n (b : Bool) : Nat := if b then 1 else 0

end Sys2Proof
end

