-- ==== Sys2Proof/Syntax.lean ====
section
/-! DEFINITION. The commands the device takes: one constructor per row of the opcode table, with the row's operands,
and the plain data those operands are made of. A control-core row carries the site whose core executes it and the
fields of its instruction word, reserved bits included. -/
namespace Sys2Proof

/-- Who makes a CSR or window access (R12, R13, R483): a function of a PCIe port (0 is the PF, which has host
privilege), the management processor, or the TAP. -/
inductive Agent where
  | host (port fn : Nat)
  | mp
  | tap
  deriving DecidableEq, Repr

/-- Where a mesh packet goes (R32, R37): a device physical address, or a byte of a logical tile's SRAM. -/
inductive MeshDst where
  | phys (pa : Nat)
  | tile (n off : Nat)
  deriving DecidableEq, Repr

/-- A mesh packet: its source stop, its requester code of R436, where it goes, and the bytes to write or the number of
bytes to read. -/
structure MeshReq where
  src : Nat
  req : Nat
  dst : MeshDst
  write : Bool
  bytes : List Byte
  len : Nat
  deriving DecidableEq, Repr

/-- What a port's PHY found in a frame: whether its FCS is good, and the codewords its FEC corrected and could not
(R321, R353). -/
structure PhyIn where
  fcsOk : Bool
  corr : Nat
  uncorr : Nat
  deriving DecidableEq, Repr

/-- A frame without error. -/
def PhyIn.clean : PhyIn := { fcsOk := true, corr := 0, uncorr := 0 }

/-- A Horven frame as it reaches a port (R333, R334). -/
structure Frame where
  phy : PhyIn
  ecn : BitVec 2
  label : BitVec 20
  prefixHi : Word64
  udp : BitVec 16
  udpSum : BitVec 16
  hop : Nat
  typ : BitVec 4
  ackv : Bool
  retx : Bool
  atom : Bool
  tc : BitVec 2
  src : BitVec 16
  dst : BitVec 16
  inc : BitVec 16
  seq : BitVec 32
  ackseq : BitVec 32
  lseq : BitVec 16
  side : BitVec 3
  vclass : Bool
  sack : BitVec 32
  ecrc : BitVec 32
  payload : List Byte
  deriving DecidableEq, Repr

/-- The fields of an OPF word beside its OP (R169, R172). -/
structure OpfBits where
  rd : RegNo
  rs1 : RegNo
  rs2 : RegNo
  s : Bool
  rdef : Bool
  rsel : Bool
  rsv : BitVec 3
  deriving DecidableEq, Repr

/-- What the Announce messages of a PTP master say (R309): the data that the best master clock algorithm compares. -/
structure PtpMaster where
  prio1 : Nat
  cls : Nat
  acc : Nat
  var : Nat
  prio2 : Nat
  gm : Nat
  steps : Nat
  deriving DecidableEq, Repr

/-- A PTP message (R309) with the identity of its sender; times have their corrections applied. -/
inductive PtpMsg where
  | announce (sender : Nat) (m : PtpMaster)
  | sync (sender seq : Nat) (twoStep : Bool) (origin : Word64)
  | followUp (sender seq : Nat) (origin : Word64)
  | delayResp (sender seq : Nat) (received : Word64)
  deriving DecidableEq, Repr

/-- What starts a substitution (R441). -/
inductive SubstCause where
  | doubleFault
  | uncorrectable
  | correctedBurst (bank : Nat)
  | hostCommand
  deriving DecidableEq, Repr

/-- What boot meets outside the device's own state: a domain that fails alignment (R419), the stacks that fail
training (R279, R497), and whether the flash answers (R502). -/
structure BootEnv where
  alignFail : Option Nat
  badStacks : List Nat
  flashOk : Bool
  deriving DecidableEq, Repr

/-- The requests of R505. -/
inductive PldmKind where
  | fru
  | sensor (id : Nat)
  | mpState
  | retiredState
  | fwUpdate
  | other
  deriving DecidableEq, Repr

/-- The commands, one per row of the opcode table. Operands that have a default carry what only timing, another device or
host privilege decides: `clash` the 8-byte words, by physical address, at which the row's SRAM writes lose a collision (R224,
log entry 62), `full` the outputs (port, TC, class) without buffer space (R348, log entry 30), `spare` the members that host
privilege adds (R451, log entry 44), `tid` and `first` what the sender's descriptor says of a put (R426, log entry 23), `phy`
what the port's PHY found. -/
inductive Instr where
  /-- CSR_WRITE (R13). -/
  | csrWrite (ag : Agent) (addr : Nat) (size : Nat) (v : Word64)
  /-- SUBST_MAP_WRITE (R25). -/
  | substMapWrite (ag : Agent) (n : Nat) (v : Word64)
  /-- SUBST_DRAINED (R27). -/
  | substDrained (n : Nat)
  /-- MESH_REQUEST (R32). -/
  | meshRequest (r : MeshReq)
  /-- SITE_WINDOW_ACCESS (R215). -/
  | siteWindowAccess (ag : Agent) (site : Nat) (off : Nat) (write : Bool) (bytes : List Byte) (len : Nat)
  /-- ENGINE_ISSUE (R187). -/
  | engineIssue (site : Nat) (w : Word32)
  /-- MX_OPEN (R513). -/
  | mxOpen (site : Nat)
  /-- MX_MMA (R88). -/
  | mxMma (site : Nat)
  /-- MX_CLOSE (R96). -/
  | mxClose (site : Nat) (clash : List Nat := [])
  /-- MX_FOLD (R100). -/
  | mxFold (site : Nat)
  /-- MX_LOADACC (R101). -/
  | mxLoadacc (site : Nat)
  /-- MX_DISCARD (R95). -/
  | mxDiscard (site : Nat)
  /-- MX_SPILL (R102). -/
  | mxSpill (site : Nat) (clash : List Nat := [])
  /-- MX_FILL (R102). -/
  | mxFill (site : Nat)
  /-- MX_KICKOFF_LAUNCH (R74). -/
  | mxKickoffLaunch (site : Nat)
  /-- MX_SHADOW_DRAIN_END (R99). -/
  | mxShadowDrainEnd (site : Nat) (g : Nat) (clash : List Nat := [])
  /-- MX_COMPLETE (R105). -/
  | mxComplete (site : Nat)
  /-- MX_FLUSH (R105). -/
  | mxFlush (ag : Agent) (site : Nat) (clash : List Nat := [])
  /-- MX_RESUME (R109). -/
  | mxResume (ag : Agent) (site : Nat)
  /-- MX_CFG_WRITE (R94). -/
  | mxCfgWrite (ag : Agent) (site : Nat) (v : Word64)
  /-- VX_RUN (R150). -/
  | vxRun (site : Nat) (clash : List Nat := [])
  /-- VX_PLOAD (R136). -/
  | vxPload (site : Nat)
  /-- VX_SPILL (R157). -/
  | vxSpill (site : Nat) (clash : List Nat := [])
  /-- VX_FILL (R157). -/
  | vxFill (site : Nat)
  /-- VX_KICKOFF_LAUNCH (R133). -/
  | vxKickoffLaunch (site : Nat)
  /-- VX_COMPLETE (R156). -/
  | vxComplete (site : Nat)
  /-- VX_FLUSH (R160). -/
  | vxFlush (ag : Agent) (site : Nat)
  /-- VX_RESUME (R160). -/
  | vxResume (ag : Agent) (site : Nat)
  /-- ADD (R171). -/
  | add (site : Nat) (rd : RegNo) (rs1 : RegNo) (rs2 : RegNo)
  /-- SUB (R171). -/
  | sub (site : Nat) (rd : RegNo) (rs1 : RegNo) (rs2 : RegNo)
  /-- AND (R171). -/
  | and (site : Nat) (rd : RegNo) (rs1 : RegNo) (rs2 : RegNo)
  /-- OR (R171). -/
  | or (site : Nat) (rd : RegNo) (rs1 : RegNo) (rs2 : RegNo)
  /-- XOR (R171). -/
  | xor (site : Nat) (rd : RegNo) (rs1 : RegNo) (rs2 : RegNo)
  /-- SHL (R171). -/
  | shl (site : Nat) (rd : RegNo) (rs1 : RegNo) (rs2 : RegNo)
  /-- SHR (R171). -/
  | shr (site : Nat) (rd : RegNo) (rs1 : RegNo) (rs2 : RegNo)
  /-- SAR (R171). -/
  | sar (site : Nat) (rd : RegNo) (rs1 : RegNo) (rs2 : RegNo)
  /-- LT (R171). -/
  | lt (site : Nat) (rd : RegNo) (rs1 : RegNo) (rs2 : RegNo)
  /-- LTU (R171). -/
  | ltu (site : Nat) (rd : RegNo) (rs1 : RegNo) (rs2 : RegNo)
  /-- MUL (R171). -/
  | mul (site : Nat) (rd : RegNo) (rs1 : RegNo) (rs2 : RegNo)
  /-- MULHS (R171). -/
  | mulhs (site : Nat) (rd : RegNo) (rs1 : RegNo) (rs2 : RegNo)
  /-- MULHU (R171). -/
  | mulhu (site : Nat) (rd : RegNo) (rs1 : RegNo) (rs2 : RegNo)
  /-- DIV (R171). -/
  | div (site : Nat) (rd : RegNo) (rs1 : RegNo) (rs2 : RegNo)
  /-- DIVU (R171). -/
  | divu (site : Nat) (rd : RegNo) (rs1 : RegNo) (rs2 : RegNo)
  /-- MOD (R171). -/
  | mod (site : Nat) (rd : RegNo) (rs1 : RegNo) (rs2 : RegNo)
  /-- MODU (R171). -/
  | modu (site : Nat) (rd : RegNo) (rs1 : RegNo) (rs2 : RegNo)
  /-- ADDK (R170). -/
  | addk (site : Nat) (rd : RegNo) (rs1 : RegNo) (imm : BitVec 16)
  /-- ANDK (R170). -/
  | andk (site : Nat) (rd : RegNo) (rs1 : RegNo) (imm : BitVec 16)
  /-- ORK (R170). -/
  | ork (site : Nat) (rd : RegNo) (rs1 : RegNo) (imm : BitVec 16)
  /-- XORK (R170). -/
  | xork (site : Nat) (rd : RegNo) (rs1 : RegNo) (imm : BitVec 16)
  /-- LTK (R170). -/
  | ltk (site : Nat) (rd : RegNo) (rs1 : RegNo) (imm : BitVec 16)
  /-- SHK (R170). -/
  | shk (site : Nat) (rd : RegNo) (rs1 : RegNo) (imm : BitVec 16)
  /-- UPK (R170). -/
  | upk (site : Nat) (rd : RegNo) (rs1 : RegNo) (imm : BitVec 16)
  /-- L64 (R168). -/
  | l64 (site : Nat) (rd : RegNo) (rs1 : RegNo) (imm : BitVec 16)
  /-- L32S (R170). -/
  | l32s (site : Nat) (rd : RegNo) (rs1 : RegNo) (imm : BitVec 16)
  /-- L32Z (R170). -/
  | l32z (site : Nat) (rd : RegNo) (rs1 : RegNo) (imm : BitVec 16)
  /-- L8Z (R170). -/
  | l8z (site : Nat) (rd : RegNo) (rs1 : RegNo) (imm : BitVec 16)
  /-- S64 (R170). -/
  | s64 (site : Nat) (rd : RegNo) (rs1 : RegNo) (imm : BitVec 16) (clash : List Nat := [])
  /-- S32 (R170). -/
  | s32 (site : Nat) (rd : RegNo) (rs1 : RegNo) (imm : BitVec 16) (clash : List Nat := [])
  /-- S8 (R170). -/
  | s8 (site : Nat) (rd : RegNo) (rs1 : RegNo) (imm : BitVec 16) (clash : List Nat := [])
  /-- FL64 (R170). -/
  | fl64 (site : Nat) (rd : RegNo) (rs1 : RegNo) (imm : BitVec 16)
  /-- FL32 (R170). -/
  | fl32 (site : Nat) (rd : RegNo) (rs1 : RegNo) (imm : BitVec 16)
  /-- FS64 (R170). -/
  | fs64 (site : Nat) (rd : RegNo) (rs1 : RegNo) (imm : BitVec 16) (clash : List Nat := [])
  /-- FS32 (R170). -/
  | fs32 (site : Nat) (rd : RegNo) (rs1 : RegNo) (imm : BitVec 16) (clash : List Nat := [])
  /-- FMA (R173). -/
  | fma (site : Nat) (fd : RegNo) (fs1 : RegNo) (fs2 : RegNo) (fs3 : RegNo) (s : Bool) (rdef : Bool) (rsel : Bool) (rsv : BitVec 3)
  /-- FADD (R173). -/
  | fadd (site : Nat) (o : OpfBits)
  /-- FSUB (R173). -/
  | fsub (site : Nat) (o : OpfBits)
  /-- FMUL (R173). -/
  | fmul (site : Nat) (o : OpfBits)
  /-- FDIV (R173). -/
  | fdiv (site : Nat) (o : OpfBits)
  /-- FSQRT (R173). -/
  | fsqrt (site : Nat) (o : OpfBits)
  /-- FMIN (R141). -/
  | fmin (site : Nat) (o : OpfBits)
  /-- FMAX (R141). -/
  | fmax (site : Nat) (o : OpfBits)
  /-- FCEQ (R141). -/
  | fceq (site : Nat) (o : OpfBits)
  /-- FCLT (R141). -/
  | fclt (site : Nat) (o : OpfBits)
  /-- FCLE (R141). -/
  | fcle (site : Nat) (o : OpfBits)
  /-- FCV_W (R172). -/
  | fcvW (site : Nat) (o : OpfBits)
  /-- FCV_TOI (R173). -/
  | fcvToi (site : Nat) (o : OpfBits)
  /-- FCV_FROMI (R172). -/
  | fcvFromi (site : Nat) (o : OpfBits)
  /-- FMOVX (R172). -/
  | fmovx (site : Nat) (o : OpfBits)
  /-- XMOVF (R172). -/
  | xmovf (site : Nat) (o : OpfBits)
  /-- FCV_TODF (R172). -/
  | fcvTodf (site : Nat) (o : OpfBits)
  /-- FCV_FROMDF (R172). -/
  | fcvFromdf (site : Nat) (o : OpfBits)
  /-- BREQ (R175). -/
  | breq (site : Nat) (rs1 : RegNo) (rs2 : RegNo) (off : BitVec 16)
  /-- BRNE (R175). -/
  | brne (site : Nat) (rs1 : RegNo) (rs2 : RegNo) (off : BitVec 16)
  /-- BRLT (R175). -/
  | brlt (site : Nat) (rs1 : RegNo) (rs2 : RegNo) (off : BitVec 16)
  /-- BRGE (R175). -/
  | brge (site : Nat) (rs1 : RegNo) (rs2 : RegNo) (off : BitVec 16)
  /-- BRLTU (R175). -/
  | brltu (site : Nat) (rs1 : RegNo) (rs2 : RegNo) (off : BitVec 16)
  /-- BRGEU (R175). -/
  | brgeu (site : Nat) (rs1 : RegNo) (rs2 : RegNo) (off : BitVec 16)
  /-- JMP (R175). -/
  | jmp (site : Nat) (off : BitVec 26)
  /-- CALL (R175). -/
  | call (site : Nat) (off : BitVec 26)
  /-- JMPR (R175). -/
  | jmpr (site : Nat) (rd : RegNo) (rs1 : RegNo) (rs2 : RegNo) (func : BitVec 11)
  /-- LOOP (R177). -/
  | loop (site : Nat) (rs : RegNo) (rsv : BitVec 4) (lvl : Bool) (fin : BitVec 16)
  /-- WAITC (R189). -/
  | waitc (site : Nat) (cc : BitVec 4) (rsvA : Bool) (rs1 : RegNo) (rsvB : BitVec 16)
  /-- WAITC_SATISFIED (R189). -/
  | waitcSatisfied (site : Nat)
  /-- WAITK (R190). -/
  | waitk (site : Nat) (rsvA : BitVec 5) (rs1 : RegNo) (rsvB : BitVec 16)
  /-- WAITK_DUE (R190). -/
  | waitkDue (site : Nat)
  /-- FENCE_M (R191). -/
  | fenceM (site : Nat) (rsv : BitVec 22)
  /-- FENCE_E (R191). -/
  | fenceE (site : Nat) (rsv : BitVec 22)
  /-- PFENCE (R296). -/
  | pfence (site : Nat) (rsv : BitVec 22)
  /-- FENCE_A (R191). -/
  | fenceA (site : Nat) (rsv : BitVec 22)
  /-- FENCE_COMPLETE (R191). -/
  | fenceComplete (site : Nat)
  /-- SPRD (R204). -/
  | sprd (site : Nat) (rd : RegNo) (rs1 : RegNo) (sr : BitVec 12)
  /-- SPWR (R204). -/
  | spwr (site : Nat) (rd : RegNo) (rs1 : RegNo) (sr : BitVec 12)
  /-- SPSET (R204). -/
  | spset (site : Nat) (rd : RegNo) (rs1 : RegNo) (sr : BitVec 12)
  /-- SPCLR (R204). -/
  | spclr (site : Nat) (rd : RegNo) (rs1 : RegNo) (sr : BitVec 12)
  /-- VSUM (R192). -/
  | vsum (site : Nat) (rd : RegNo) (f : Bool) (slot : BitVec 3) (rsv : BitVec 17)
  /-- TRAP (R195). -/
  | trap (site : Nat) (code : BitVec 12) (rsv : BitVec 10)
  /-- ERET (R202). -/
  | eret (site : Nat) (rsv : BitVec 22)
  /-- INTERRUPT_ENTRY (R201). -/
  | interruptEntry (site : Nat)
  /-- BALLOC (R218). -/
  | balloc (site : Nat) (rd : RegNo) (rs1 : RegNo) (rs2 : RegNo)
  /-- BFREE (R217). -/
  | bfree (site : Nat) (rd : RegNo) (rs1 : RegNo) (rs2 : RegNo)
  /-- BHAND (R217). -/
  | bhand (site : Nat) (rd : RegNo) (rs1 : RegNo) (rs2 : RegNo)
  /-- BGUEST (R217). -/
  | bguest (site : Nat) (rd : RegNo) (rs1 : RegNo) (rs2 : RegNo)
  /-- BLOCK (R219). -/
  | block (site : Nat) (rd : RegNo) (rs1 : RegNo) (rs2 : RegNo)
  /-- BPWR (R225). -/
  | bpwr (site : Nat) (rd : RegNo) (rs1 : RegNo) (rs2 : RegNo)
  /-- CORE_START (R208). -/
  | coreStart (ag : Agent) (site : Nat)
  /-- CORE_STOP (R208). -/
  | coreStop (ag : Agent) (site : Nat)
  /-- IRQH (R208). -/
  | irqh (ag : Agent) (site : Nat)
  /-- IRQM (R208). -/
  | irqm (ag : Agent) (site : Nat)
  /-- TL_CORE_PC_WRITE (R210). -/
  | tlCorePcWrite (ag : Agent) (site : Nat) (v : Word64)
  /-- TL_BANK_OWN_WRITE (R221). -/
  | tlBankOwnWrite (ag : Agent) (site : Nat) (v : Word64)
  /-- TL_BANK_PWR_WRITE (R232). -/
  | tlBankPwrWrite (ag : Agent) (site : Nat) (v : Word64)
  /-- BANK_WAKE_DONE (R225). -/
  | bankWakeDone (site : Nat) (bank : Nat)
  /-- SV_LAUNCH (R246). -/
  | svLaunch (site : Nat)
  /-- SV_LOAD (R241). -/
  | svLoad (site : Nat)
  /-- SV_UNLOAD (R241). -/
  | svUnload (site : Nat)
  /-- FORWARDED_LAUNCH (R246). -/
  | forwardedLaunch (site : Nat)
  /-- SV_PART_START (R248). -/
  | svPartStart (site : Nat) (clash : List Nat := [])
  /-- SV_PIECE_ARRIVE (R249). -/
  | svPieceArrive (site : Nat)
  /-- SV_WAIT_SATISFIED (R239). -/
  | svWaitSatisfied (site : Nat) (clash : List Nat := [])
  /-- SV_PART_END (R250). -/
  | svPartEnd (site : Nat)
  /-- SV_DONE_PIECE (R250). -/
  | svDonePiece (site : Nat)
  /-- SV_RUN_COMPLETE (R250). -/
  | svRunComplete (site : Nat) (clash : List Nat := [])
  /-- SV_FAIL_NOTICE (R251). -/
  | svFailNotice (site : Nat)
  /-- SV_FLUSH (R262). -/
  | svFlush (ag : Agent) (site : Nat)
  /-- SV_RESUME (R265). -/
  | svResume (ag : Agent) (site : Nat)
  /-- SCRUB_READ (R277). -/
  | scrubRead (stack : Nat)
  /-- LANE_REPAIR (R278). -/
  | laneRepair (stack : Nat) (lane : Nat)
  /-- LANE_REPAIR_END (R278). -/
  | laneRepairEnd (stack : Nat)
  /-- STACK_LOST (R279). -/
  | stackLost (stack : Nat)
  /-- FAULT_RETRY (R285). -/
  | faultRetry (ag : Agent) (q : Nat)
  /-- FAULT_FAIL (R285). -/
  | faultFail (ag : Agent) (q : Nat)
  /-- PG_DIR_KICK (R287). -/
  | pgDirKick (ag : Agent) (q : Nat)
  /-- DIR_POLL (R287). -/
  | dirPoll (q : Nat)
  /-- DIRECTIVE_START (R288). -/
  | directiveStart (q : Nat)
  /-- DIR_FETCH (R288). -/
  | dirFetch (q : Nat)
  /-- DIR_OFFLOAD (R289). -/
  | dirOffload (q : Nat)
  /-- DIR_ALLOC (R288). -/
  | dirAlloc (q : Nat)
  /-- DIR_FREE (R288). -/
  | dirFree (q : Nat)
  /-- DIR_RETAIN (R291). -/
  | dirRetain (q : Nat)
  /-- DIR_RELEASE (R288). -/
  | dirRelease (q : Nat)
  /-- TRANSLATION_INVAL_ACK (R289). -/
  | translationInvalAck (q : Nat) (stop : Nat)
  /-- PAGE_MOVE_DONE (R289). -/
  | pageMoveDone (q : Nat) (hostOk : Bool)
  /-- BUDGET_WAIT_END (R290). -/
  | budgetWaitEnd (q : Nat)
  /-- DIRECTIVE_COMPLETE (R292). -/
  | directiveComplete (q : Nat)
  /-- STAGE_APPEND (R293). -/
  | stageAppend (ag : Agent) (v : Word64)
  /-- PROT_REG_WRITE (R293). -/
  | protRegWrite (ag : Agent) (off : Nat) (v : Word64)
  /-- BUMP (R294). -/
  | bump (ag : Agent)
  /-- PROT_BUMP_APPLY (R294). -/
  | protBumpApply
  /-- STAGE_CLEAR (R302). -/
  | stageClear (ag : Agent)
  /-- HPOOL_WRITE (R302). -/
  | hpoolWrite (ag : Agent) (port : Nat) (size : Bool) (v : Word64)
  /-- TB_SET_WRITE (R319). -/
  | tbSetWrite (ag : Agent) (v : Word64)
  /-- TB_CFG_WRITE (R319). -/
  | tbCfgWrite (ag : Agent) (v : Word64)
  /-- PTP_MESSAGE (R309). -/
  | ptpMessage (port : Nat) (dom : Nat) (m : PtpMsg)
  /-- TIME_SOURCE_LOST (R308). -/
  | timeSourceLost
  /-- TIME_SEND (R310). -/
  | timeSend (port : Nat)
  /-- TIME (R310). -/
  | time (port : Nat) (tb : Word64) (hops : Nat) (root : Word64) (serial : Word64)
  /-- PARENT_RESELECT (R310). -/
  | parentReselect
  /-- PCS_LOCK (R323). -/
  | pcsLock (port : Nat)
  /-- HELLO_SEND (R323). -/
  | helloSend (port : Nat)
  /-- HELLO (R323). -/
  | hello (port : Nat) (serial : Word64) (coord : BitVec 16) (llrEn : Bool) (direct : Bool) (typ : BitVec 8 := 1) (mac : BitVec 48 := 0)
  /-- HELLO_TIMEOUT (R323). -/
  | helloTimeout (port : Nat)
  /-- KEEPALIVE_SEND (R324). -/
  | keepaliveSend (port : Nat)
  /-- KEEPALIVE (R460). -/
  | keepalive (port : Nat) (epoch : BitVec 32) (digest : Word64)
  /-- KEEPALIVE_TIMEOUT (R324). -/
  | keepaliveTimeout (port : Nat)
  /-- LANE_BAD (R325). -/
  | laneBad (port : Nat) (lane : Nat)
  /-- WIDTH_REQ (R328). -/
  | widthReq (port : Nat) (mask : BitVec 8)
  /-- WIDTH_ACK (R327). -/
  | widthAck (port : Nat) (mask : BitVec 8)
  /-- WIDTH_GO (R327). -/
  | widthGo (port : Nat) (mask : BitVec 8) (k : BitVec 32)
  /-- WIDTH_SWITCH (R327). -/
  | widthSwitch (port : Nat)
  /-- LINK_RELOCK (R327). -/
  | linkRelock (port : Nat)
  /-- RELOCK_TIMEOUT (R327). -/
  | relockTimeout (port : Nat)
  /-- RETRAIN_REQ (R328). -/
  | retrainReq (port : Nat)
  /-- PORT_WIDTH (R326). -/
  | portWidth (ag : Agent) (port : Nat)
  /-- PORT_RETRAIN (R329). -/
  | portRetrain (ag : Agent) (port : Nat)
  /-- LINK_TRAINED (R329). -/
  | linkTrained (port : Nat) (lanes : BitVec 8)
  /-- LINK_DOWN (R330). -/
  | linkDown (port : Nat)
  /-- LLR_ACK (R332). -/
  | llrAck (port : Nat) (seq : BitVec 16)
  /-- LLR_NAK (R332). -/
  | llrNak (port : Nat) (seq : BitVec 16)
  /-- LLR_TIMEOUT (R332). -/
  | llrTimeout (port : Nat)
  /-- DATA (R338). -/
  | data (port : Nat) (f : Frame)
  /-- ACK (R338). -/
  | ack (port : Nat) (f : Frame)
  /-- ARESP (R337). -/
  | aresp (port : Nat) (f : Frame) (clash : List Nat := [])
  /-- ACK_DELAY_EXPIRY (R339). -/
  | ackDelayExpiry (coord : BitVec 16) (tc : BitVec 2)
  /-- RTO_EXPIRY (R341). -/
  | rtoExpiry (coord : BitVec 16) (tc : BitVec 2) (seq : BitVec 32)
  /-- FRAME_FORWARD (R346). -/
  | frameForward (port : Nat) (f : Frame) (full : List (Nat × Nat × Bool) := [])
  /-- FRAME_HOLD_TIMEOUT (R348). -/
  | frameHoldTimeout (port : Nat)
  /-- FLOW_RESET (R344). -/
  | flowReset (ag : Agent) (coord : BitVec 16)
  /-- DEAD_SET (R347). -/
  | deadSet (ag : Agent) (coord : BitVec 16)
  /-- DEAD_CLR (R347). -/
  | deadClr (ag : Agent) (coord : BitVec 16)
  /-- ROUTER_ID_WRITE (R354). -/
  | routerIdWrite (ag : Agent) (off : Nat) (v : Word64)
  /-- OPEN_PORT_RECEIVE (R350). -/
  | openPortReceive (port : Nat) (addr : BitVec 128) (udp : BitVec 16) (payload : List Byte) (phy : PhyIn := PhyIn.clean)
  /-- NEIGHBOUR_SOLICITATION (R350). -/
  | neighbourSolicitation (port : Nat) (addr : BitVec 128)
  /-- CP_LAUNCH (R357). -/
  | cpLaunch (site : Nat) (clash : List Nat := [])
  /-- PUT (R364). -/
  | put (site : Nat) (tag : Nat) (clash : List Nat := [])
  /-- GET (R364). -/
  | get (site : Nat) (tag : Nat) (clash : List Nat := [])
  /-- ATOMIC (R364). -/
  | atomic (site : Nat) (tag : Nat)
  /-- OSEND (R364). -/
  | osend (site : Nat) (tag : Nat)
  /-- REDUCE_SCATTER (R378). -/
  | reduceScatter (site : Nat) (tag : Nat) (clash : List Nat := [])
  /-- ALL_GATHER (R378). -/
  | allGather (site : Nat) (tag : Nat) (clash : List Nat := [])
  /-- ALL_REDUCE (R378). -/
  | allReduce (site : Nat) (tag : Nat) (clash : List Nat := [])
  /-- BROADCAST (R378). -/
  | broadcast (site : Nat) (tag : Nat) (clash : List Nat := [])
  /-- CP_COMPLETE (R359). -/
  | cpComplete (site : Nat) (tag : Nat) (clash : List Nat := [])
  /-- CP_FLUSH (R383). -/
  | cpFlush (ag : Agent) (site : Nat) (clash : List Nat := [])
  /-- CP_RESUME (R383). -/
  | cpResume (ag : Agent) (site : Nat)
  /-- PUT_DATA (R364). -/
  | putData (tid : BitVec 16 := 0) (first : BitVec 40 := 0)
  /-- GET_REQ (R372). -/
  | getReq
  /-- GET_DATA (R372). -/
  | getData (clash : List Nat := [])
  /-- ATOM (R373). -/
  | atom
  /-- ATOM_PART (R373). -/
  | atomPart
  /-- FADD32 (R370). -/
  | fadd32
  /-- FMAX32 (R368). -/
  | fmax32
  /-- FMIN32 (R368). -/
  | fmin32
  /-- IADD64 (R368). -/
  | iadd64 (clash : List Nat := [])
  /-- SWAP64 (R368). -/
  | swap64 (clash : List Nat := [])
  /-- CAS64 (R368). -/
  | cas64 (clash : List Nat := [])
  /-- IMAX64 (R368). -/
  | imax64 (clash : List Nat := [])
  /-- IMIN64 (R368). -/
  | imin64 (clash : List Nat := [])
  /-- ASUM_WAIT_TIMEOUT (R369). -/
  | asumWaitTimeout
  /-- COMBINE_WINDOW_END (R373). -/
  | combineWindowEnd (entry : Nat)
  /-- COLL_DATA (R376). -/
  | collData (clash : List Nat := [])
  /-- NOTREADY (R376). -/
  | notready
  /-- READY (R376). -/
  | ready
  /-- STALE_RET (R376). -/
  | staleRet (clash : List Nat := [])
  /-- STATUS (R379). -/
  | status
  /-- RANK_ARRIVE (R387). -/
  | rankArrive (site : Nat) (tag : Nat)
  /-- REDUCTION_CLOSE (R388). -/
  | reductionClose (site : Nat) (tag : Nat) (clash : List Nat := [])
  /-- LINEUP_LOG_WRITE (R393). -/
  | lineupLogWrite
  /-- REPLAY_RELEASE (R394). -/
  | replayRelease (ag : Agent)
  /-- CLEAR_CARRY (R391). -/
  | clearCarry (ag : Agent)
  /-- MB_START (R395). -/
  | mbStart (ag : Agent)
  /-- MB_ADMIT (R395). -/
  | mbAdmit
  /-- MB_KICK (R397). -/
  | mbKick (ag : Agent)
  /-- MB_SCAN (R397). -/
  | mbScan
  /-- UPD_KICK (R401). -/
  | updKick (ag : Agent)
  /-- UPD_POLL (R401). -/
  | updPoll
  /-- UPD_RESUME (R403). -/
  | updResume (ag : Agent)
  /-- UPDATE_START (R401). -/
  | updateStart
  /-- SGD (R405). -/
  | sgd
  /-- MOMENTUM (R405). -/
  | momentum
  /-- NESTEROV (R405). -/
  | nesterov
  /-- ADAGRAD (R405). -/
  | adagrad
  /-- RMSPROP (R405). -/
  | rmsprop
  /-- ADAM (R405). -/
  | adam
  /-- ADAMW (R405). -/
  | adamw
  /-- LAMB_APPLY (R405). -/
  | lambApply
  /-- NORMSQ (R406). -/
  | normsq
  /-- LAMB_NORM (R406). -/
  | lambNorm
  /-- CONVERT (R406). -/
  | convert
  /-- UPDATE_COMPLETE (R401). -/
  | updateComplete
  /-- TR_GEN_WRITE (R408). -/
  | trGenWrite (ag : Agent) (v : Word64)
  /-- STALE_COLLECTIVE_FINISH (R408). -/
  | staleCollectiveFinish (site : Nat) (tag : Nat) (clash : List Nat := [])
  /-- TR_HOME_WRITE (R399). -/
  | trHomeWrite (ag : Agent) (v : Word64)
  /-- DIGEST_FLUSH (R427). -/
  | digestFlush (ag : Agent)
  /-- DIGEST_RECORD_WRITE (R428). -/
  | digestRecordWrite
  /-- DG_SELECT_WRITE (R430). -/
  | dgSelectWrite (ag : Agent) (off : Nat) (v : Word64)
  /-- INJECT_FEED (R424). -/
  | injectFeed
  /-- WHISTLE (R453). -/
  | whistle
  /-- RETIRE (R450). -/
  | retire (spare : BitVec 16 := 0)
  /-- SUSPECT (R450). -/
  | suspect (spare : BitVec 16 := 0)
  /-- SUSPECT_SEND (R449). -/
  | suspectSend (port : Nat)
  /-- HEARTBEAT_SEND (R455). -/
  | heartbeatSend
  /-- HEARTBEAT (R455). -/
  | heartbeat
  /-- REFEREE_TAKEOVER (R455). -/
  | refereeTakeover (members : BitVec 16)
  /-- REJOIN (R456). -/
  | rejoin
  /-- AGREE_START (R461). -/
  | agreeStart
  /-- AGREE (R461). -/
  | agree
  /-- AGREE_WRITE_START (R461). -/
  | agreeWriteStart (ag : Agent)
  /-- ERR_TAIL_WRITE (R515). -/
  | errTailWrite (ag : Agent) (v : Word64)
  /-- ERR_INJ_ARM (R438). -/
  | errInjArm (ag : Agent) (v : Word64)
  /-- EYE_MARGIN_CHECK (R434). -/
  | eyeMarginCheck (inst : Nat) (lane : Nat) (pct : Nat)
  /-- SUBST_START (R442). -/
  | substStart (n : Nat) (cause : SubstCause)
  /-- SUBST_PLACE_RESTORE (R442). -/
  | substPlaceRestore
  /-- SUBST_DONE (R442). -/
  | substDone
  /-- CFG_DIGEST_RECOMPUTE (R459). -/
  | cfgDigestRecompute
  /-- LOAD_WINDOW (R463). -/
  | loadWindow (c0 : BitVec 8) (c1 : BitVec 8) (c2 : BitVec 8) (c3 : BitVec 8)
  /-- WATCHDOG_KICK (R464). -/
  | watchdogKick (core : Nat)
  /-- WATCHDOG_EXPIRY (R464). -/
  | watchdogExpiry (core : Nat)
  /-- MP_RESET (R464). -/
  | mpReset (ag : Agent)
  /-- MP_UPDATE (R465). -/
  | mpUpdate (ag : Agent)
  /-- SQ_CFG_WRITE (R468). -/
  | sqCfgWrite (ag : Agent) (q : Nat) (v : Word64)
  /-- CALLUP (R475). -/
  | callup (ag : Agent) (q : Nat)
  /-- YIELD_STORE (R476). -/
  | yieldStore (site : Nat) (v : Word64) (clash : List Nat := [])
  /-- CALLUP_CALLED (R476). -/
  | callupCalled (q : Nat)
  /-- RETURN (R477). -/
  | callReturn (ag : Agent) (q : Nat)
  /-- CALLUP_RETURNED (R476). -/
  | callupReturned (q : Nat)
  /-- DEFICIT_WINDOW_END (R472). -/
  | deficitWindowEnd (q : Nat) (hbm : Nat) (fab : Nat) (repaid : Bool)
  /-- QUEUE_DOORBELL (R490). -/
  | queueDoorbell (p : Nat) (f : Nat) (k : Nat) (tail : Bool) (v : BitVec 16)
  /-- CMD_NOP (R491). -/
  | cmdNop (p : Nat) (f : Nat) (k : Nat)
  /-- TILE_LOAD (R491). -/
  | tileLoad (p : Nat) (f : Nat) (k : Nat)
  /-- CMD_SUBST (R491). -/
  | cmdSubst (p : Nat) (f : Nat) (k : Nat)
  /-- CMD_WHISTLE (R491). -/
  | cmdWhistle (p : Nat) (f : Nat) (k : Nat) (spare : BitVec 16 := 0)
  /-- CMD_INFO (R491). -/
  | cmdInfo (p : Nat) (f : Nat) (k : Nat)
  /-- CMD_DIGEST (R491). -/
  | cmdDigest (p : Nat) (f : Nat) (k : Nat)
  /-- CMD_FLASH (R491). -/
  | cmdFlash (p : Nat) (f : Nat) (k : Nat)
  /-- HI_BAR2_WRITE (R486). -/
  | hiBar2Write (ag : Agent) (p : Nat) (v : Word64)
  /-- COLD_RESET (R497). -/
  | coldReset (env : BootEnv)
  /-- WARM_RESET (R499). -/
  | warmReset (p : Nat) (env : BootEnv)
  /-- DEVICE_RESET (R499). -/
  | deviceReset (ag : Agent) (v : Word64) (env : BootEnv)
  /-- TILE_RESET (R500). -/
  | tileReset (ag : Agent) (v : Word64)
  /-- SQUAD_RESET (R500). -/
  | squadReset (ag : Agent) (v : Word64)
  /-- PORT_PERST (R499). -/
  | portPerst (p : Nat)
  /-- FUNCTION_LEVEL_RESET (R499). -/
  | functionLevelReset (p : Nat) (f : Nat)
  /-- POWER_SAMPLE (R508). -/
  | powerSample (watts : Nat)
  /-- PWR_BRAKE (R508). -/
  | pwrBrake (asserted : Bool)
  /-- THERMAL_LIMIT (R509). -/
  | thermalLimit (sensor : Nat) (temp : Nat)
  /-- THERMAL_TRIP (R509). -/
  | thermalTrip (sensor : Nat) (temp : Nat)
  /-- TAP_CSR (R504). -/
  | tapCsr (dr : BitVec 128)
  /-- PLDM_REQUEST (R505). -/
  | pldmRequest (kind : PldmKind) (auxOnly : Bool) (req : List Byte)
  /-- PCIE_LINK_UP (R482). -/
  | pcieLinkUp (p : Nat) (width : Nat) (speed : Nat)
  /-- PCIE_LINK_DOWN (R38). -/
  | pcieLinkDown (p : Nat)
  /-- HBM_WINDOW_ACCESS (R486). -/
  | hbmWindowAccess (p : Nat) (off : Nat) (write : Bool) (bytes : List Byte) (len : Nat)
  /-- DIGEST_STALE (R459). -/
  | digestStale
  /-- TRST_ASSERT (R504). -/
  | trstAssert
  /-- PORT_ENABLE (R353). -/
  | portEnable (ag : Agent) (port : Nat) (en : Bool)
  deriving DecidableEq, Repr

end Sys2Proof
end

