-- ==== Sys2Proof/Config.lean ====
section
/-! DEFINITION. The values the spec leaves open. Each is an opaque constant without a body, so nothing can be proved
of what it is: a claim holds whatever it is. Log entries 3, 4, 5, 45, 47 and 70 name each
use. -/
namespace Sys2Proof.Config

/-- A fresh free value: applied to the model's counter `State.free`, which every use advances (log entry 3). -/
opaque freeValue : Nat → Word64

/-- A fresh free count, for orders and amounts the spec does not fix (log entry 3). -/
opaque freeCount : Nat → Nat

/-- Does the boot controller accept these bytes as a firmware image (R465, R496)? The spec names the tag, the length
and the signature but lays none of them out (log entry 4). -/
opaque imageAccepted : List Byte → Bool

/-- Results revision carried by a firmware image (R465, R496), whose place in the image the spec does not give
(log entry 4). -/
opaque imageRevision : List Byte → Word32

/-- Version number carried by a firmware image (R467), whose place in the image the spec does not give
(log entry 4). -/
opaque imageVersion : List Byte → Word32

/-- The body of an answer that a DMTF standard, not this spec, lays out (R505; log entry 5). -/
opaque pldmBody : Nat → List Byte → List Byte

/-- The byte that a failed solver run leaves in an array it has written (R251): of the run's descriptor, the SRAM address,
and what the part wrote there (log entry 70). -/
opaque failedByte : Nat → Nat → BitVec 8 → BitVec 8

/-- The residual measure of an iterative solver run that failed, of its descriptor (R251, R270; log entry 70). -/
opaque failedResid : Nat → Word64

/-- Which of its errors an update record that meets several reports, of the record (R403; log entry 45). -/
opaque updateError : Nat → Nat

/-- Which lines of its parameter line `g` a record that meets an error has written by then, as a mask, of the record (R403;
log entry 45). -/
opaque updateLines : Nat → Nat → Nat

/-- Half `h` of the DEVICE_ID wrapper register of HBM stack `k`, which training reads (R503; log entry 47). -/
opaque stackId : Nat → Nat → Word64

end Sys2Proof.Config
end

