-- ==== Sys2Proof/Machine/Tab.lean ====
section
/-! DEFINITION. Sparse tables: a list of (key, value) pairs in rising key order, with a default for the keys that are
not listed. Register files, tables of CSR words and the sites of the grid are kept in this form. -/
namespace Sys2Proof.Machine

/-- A sparse table keyed by numbers. -/
abbrev Tab (α : Type) := List (Nat × α)

/-- The value listed at `k`, or `d`. -/
def Tab.get {α : Type} (t : Tab α) (d : α) (k : Nat) : α :=
  match t with
  | [] => d
  | (k', v) :: r => if k' = k then v else Tab.get r d k

/-- `t` with `v` at key `k`. -/
def Tab.set {α : Type} (t : Tab α) (k : Nat) (v : α) : Tab α :=
  match t with
  | [] => [(k, v)]
  | (k', v') :: r =>
    if k' = k then (k, v) :: r
    else if k < k' then (k, v) :: (k', v') :: r
    else (k', v') :: Tab.set r k v

/-- `t` without the keys `k ≤ key < k + n`. -/
def Tab.drop {α : Type} (t : Tab α) (k n : Nat) : Tab α :=
  t.filter fun e => e.1 < k || k + n ≤ e.1

/-- Keys rise strictly. -/
def Tab.wf {α : Type} : Tab α → Bool
  | [] => true
  | [_] => true
  | a :: b :: r => a.1 < b.1 && Tab.wf (b :: r)

/-- The number formed by `n` bytes read at `a`, least significant byte first (R10, R17). -/
def leNum (rd : Nat → Byte) (a : Nat) : Nat → Nat
  | 0 => 0
  | n + 1 => (rd a).toNat + 256 * leNum rd (a + 1) n

/-- The `n` bytes of the number `v`, least significant byte first (R10, R17). -/
def leBytes (v : Nat) : Nat → List Byte
  | 0 => []
  | n + 1 => BitVec.ofNat 8 v :: leBytes (v / 256) n

/-- The number that a list of bytes spells, least significant byte first. -/
def ofBytes : List Byte → Nat
  | [] => 0
  | b :: r => b.toNat + 256 * ofBytes r

/-- Bytes placed at an offset of a list. -/
def putBytes (l : List Byte) (at_ : Nat) (v : List Byte) : List Byte := l.take at_ ++ v ++ l.drop (at_ + v.length)

/-- `f` folded over `0, 1, …, n − 1`. -/
def foldN {β : Type} (n : Nat) (f : Nat → β → β) (b : β) : β :=
  (List.range n).foldl (fun acc i => f i acc) b

/-- Ceiling division. -/
def cdiv (a b : Nat) : Nat := (a + b - 1) / b

/-- Two's-complement reading of the low `w` bits (R46). -/
def sInt (w v : Nat) : Int := (BitVec.ofNat w v).toInt

/-- The low `w` bits of an integer. -/
def uBits (w : Nat) (v : Int) : Nat := (BitVec.ofInt w v).toNat

/-- Serial difference of the pseudocode of chapter "Scope and conventions": `(a − b) mod 2^w` read in two's complement. -/
def serialDiff (a b w : Nat) : Int := sInt w (uBits w ((a : Int) - b))

end Sys2Proof.Machine
end

