-- ==== Sys2Proof/Machine/Mem.lean ====
section
/-! DEFINITION. The byte memory: one list of (address, byte) pairs over the device physical map (R37), addresses
strictly rising, no entry equal to zero, which is what an unlisted address reads as (R228, R497; host memory: log
entry 6). Accumulator stores use the same form. -/
namespace Sys2Proof.Machine

/-- A byte memory in canonical form. -/
abbrev Mem := List Host.Cell

/-- What an unlisted address reads as. -/
def memDefault : Byte := 0#8

/-- The byte at an address. -/
def Mem.get (m : Mem) (a : Nat) : Byte :=
  match m with
  | [] => memDefault
  | (k, v) :: r => if k = a then v else if a < k then memDefault else Mem.get r a

/-- The memory with one byte changed; writing the default removes the entry. -/
def Mem.set (m : Mem) (a : Nat) (v : Byte) : Mem :=
  match m with
  | [] => if v = memDefault then [] else [(a, v)]
  | (k, w) :: r =>
    if k = a then if v = memDefault then r else (a, v) :: r
    else if a < k then if v = memDefault then (k, w) :: r else (a, v) :: (k, w) :: r
    else (k, w) :: Mem.set r a v

/-- The canonical form: addresses strictly rising, no entry equal to the default. -/
def Mem.wf : Mem → Bool
  | [] => true
  | [(_, v)] => v != memDefault
  | (k, v) :: (k', v') :: r => v != memDefault && decide (k < k') && Mem.wf ((k', v') :: r)

/-- Bytes written at rising addresses from `a`. -/
def Mem.write (m : Mem) (a : Nat) : List Byte → Mem
  | [] => m
  | b :: r => Mem.write (m.set a b) (a + 1) r

/-- `n` bytes from `a`. -/
def Mem.bytes (m : Mem) (a : Nat) : Nat → List Byte
  | 0 => []
  | n + 1 => m.get a :: Mem.bytes m (a + 1) n

/-- The little-endian number in `n` bytes from `a` (R10). -/
def Mem.num (m : Mem) (a n : Nat) : Nat := leNum m.get a n

/-- The little-endian number `v` written in `n` bytes from `a` (R10). -/
def Mem.setNum (m : Mem) (a n v : Nat) : Mem := m.write a (leBytes v n)

/-- The `n` bytes from `a` returned to the default. -/
def Mem.clear (m : Mem) (a n : Nat) : Mem := m.filter fun c => c.1 < a || a + n ≤ c.1

/-- A field of `w` bits at bit `bit` of the packed run that starts at byte `a` (R49). -/
def Mem.bits (m : Mem) (a bit w : Nat) : Nat :=
  let o := bit % 8
  bitsOf (m.num (a + bit / 8) ((o + w + 7) / 8)) o w

/-- That field written, its neighbours kept (R49). -/
def Mem.setBits (m : Mem) (a bit w v : Nat) : Mem :=
  let o := bit % 8
  let n := (o + w + 7) / 8
  let old := m.num (a + bit / 8) n
  m.setNum (a + bit / 8) n (old % 2 ^ o + (v % 2 ^ w) <<< o + (old >>> (o + w)) <<< (o + w))

/-- The bytes of a region as sparse bytes from 0. -/
def Mem.slice (m : Mem) (a n : Nat) : Mem := (m.filter fun c => a ≤ c.1 && c.1 < a + n).map fun c => (c.1 - a, c.2)

/-- A region replaced by sparse bytes from 0. -/
def Mem.paste (m : Mem) (a n : Nat) (p : Mem) : Mem := p.foldl (fun m c => m.set (a + c.1) c.2) (m.clear a n)

/-- The sum modulo 2^64 of the 64-bit words of sparse bytes whose addresses count from a multiple of 8. -/
def wordSum (m : Mem) : Nat := (m.foldl (fun s c => s + c.2.toNat * 256 ^ (c.1 % 8)) 0) % 2 ^ 64

end Sys2Proof.Machine
end

