-- ==== Sys2Proof/Machine/Num.lean ====
section
/-! DEFINITION. Exact numbers: what a float element stands for (R42), and the exact results that rounding starts from.
A finite number is `± (m + θ) · 2^e`, where `θ = 0` unless `st` is set, and `0 < θ < 1` when it is. -/
namespace Sys2Proof.Machine

/-- A number before it is rounded: a NaN, an infinity or a finite value. -/
inductive Num where
  | nan
  | inf (neg : Bool)
  | fin (neg : Bool) (m : Nat) (e : Int) (st : Bool)
  deriving DecidableEq, Repr

/-- The bit length of a number. -/
def bitLen (n : Nat) : Nat := if n = 0 then 0 else Nat.log2 n + 1

/-- `m · 2^k` rounded towards zero. -/
def shiftNat (m : Nat) (k : Int) : Nat := if 0 ≤ k then m <<< k.toNat else m >>> (-k).toNat

/-- Zero of a sign. -/
def Num.zero (neg : Bool) : Num := .fin neg 0 0 false

/-- One. -/
def Num.one : Num := .fin false 1 0 false

/-- An integer. -/
def Num.ofInt (i : Int) : Num := .fin (decide (i < 0)) i.natAbs 0 false

/-- `2^e`. -/
def Num.pow2 (e : Int) : Num := .fin false 1 e false

/-- Is it a NaN? -/
def Num.isNan : Num → Bool
  | .nan => true
  | _ => false

/-- Is it an infinity? -/
def Num.isInf : Num → Bool
  | .inf _ => true
  | _ => false

/-- Is it a zero? -/
def Num.isZero : Num → Bool
  | .fin _ m _ st => m == 0 && !st
  | _ => false

/-- The sign. -/
def Num.neg? : Num → Bool
  | .nan => false
  | .inf s => s
  | .fin s _ _ _ => s

/-- The number with the opposite sign. -/
def Num.negate : Num → Num
  | .nan => .nan
  | .inf s => .inf (!s)
  | .fin s m e st => .fin (!s) m e st

/-- The magnitude. -/
def Num.abs : Num → Num
  | .nan => .nan
  | .inf _ => .inf false
  | .fin _ m e st => .fin false m e st

/-- Exact sum of two finite exact numbers. A zero sum is +0 unless both addends are −0 (R54, R85). -/
def Num.addFin (s1 : Bool) (m1 : Nat) (e1 : Int) (s2 : Bool) (m2 : Nat) (e2 : Int) : Num :=
  let e := min e1 e2
  let a : Int := (m1 <<< (e1 - e).toNat : Nat)
  let b : Int := (m2 <<< (e2 - e).toNat : Nat)
  let t := (if s1 then -a else a) + (if s2 then -b else b)
  if t = 0 then .fin (s1 && s2 && m1 == 0 && m2 == 0) 0 0 false
  else .fin (decide (t < 0)) t.natAbs e false

/-- Exact sum; the flag is true when ∞ − ∞ makes the NaN (R54). -/
def Num.add : Num → Num → Num × Bool
  | .nan, _ => (.nan, false)
  | _, .nan => (.nan, false)
  | .inf s, .inf t => if s = t then (.inf s, false) else (.nan, true)
  | .inf s, _ => (.inf s, false)
  | _, .inf t => (.inf t, false)
  | .fin s1 m1 e1 _, .fin s2 m2 e2 _ => (Num.addFin s1 m1 e1 s2 m2 e2, false)

/-- Exact product; the flag is true when 0 × ∞ makes the NaN (R54, R82). -/
def Num.mul : Num → Num → Num × Bool
  | .nan, _ => (.nan, false)
  | _, .nan => (.nan, false)
  | .inf s, .inf t => (.inf (s != t), false)
  | .inf s, .fin t m _ _ => if m = 0 then (.nan, true) else (.inf (s != t), false)
  | .fin s m _ _, .inf t => if m = 0 then (.nan, true) else (.inf (s != t), false)
  | .fin s1 m1 e1 _, .fin s2 m2 e2 _ => (.fin (s1 != s2) (m1 * m2) (e1 + e2) false, false)

/-- Quotient bits kept before rounding: enough for any format and any stochastic draw. -/
def quotBits : Nat := 120

/-- Quotient; the flag is true when 0 / 0 or ∞ / ∞ makes the NaN (R54). -/
def Num.div : Num → Num → Num × Bool
  | .nan, _ => (.nan, false)
  | _, .nan => (.nan, false)
  | .inf _, .inf _ => (.nan, true)
  | .inf s, .fin t _ _ _ => (.inf (s != t), false)
  | .fin s _ _ _, .inf t => (Num.zero (s != t), false)
  | .fin s m e _, .fin t m' e' _ =>
    if m' = 0 then if m = 0 then (.nan, true) else (.inf (s != t), false)
    else
      let k := quotBits + bitLen m'
      let n := m <<< k
      (.fin (s != t) (n / m') (e - e' - k) (n % m' != 0), false)

/-- Integer square root, bit by bit from bit `b − 1` down. -/
def isqrt (n : Nat) : Nat → Nat → Nat
  | 0, r => r
  | b + 1, r =>
    let t := r + 2 ^ b
    isqrt n b (if t * t ≤ n then t else r)

/-- Square root; the flag is true when a negative operand makes the NaN (R54). -/
def Num.sqrt : Num → Num × Bool
  | .nan => (.nan, false)
  | .inf false => (.inf false, false)
  | .inf true => (.nan, true)
  | .fin s m e _ =>
    if m = 0 then (Num.zero s, false)
    else if s then (.nan, true)
    else
      let k := 2 * quotBits + (e % 2).toNat
      let n := m <<< k
      let r := isqrt n ((bitLen n + 1) / 2) 0
      (.fin false r ((e - k) / 2) (r * r != n), false)

/-- Order of two numbers, infinities included, the two zeros equal; only for operands that are not NaN. -/
def Num.lt (a b : Num) : Bool :=
  match a, b with
  | .nan, _ => false
  | _, .nan => false
  | .inf s, .inf t => s && !t
  | .inf s, _ => s
  | _, .inf t => !t
  | .fin s1 m1 e1 _, .fin s2 m2 e2 _ =>
    match Num.addFin s1 m1 e1 (!s2) m2 e2 with
    | .fin s m _ _ => s && m != 0
    | _ => false

/-- Numerical equality, the two zeros equal. -/
def Num.eq (a b : Num) : Bool := !a.isNan && !b.isNan && !Num.lt a b && !Num.lt b a

/-- The order of R141: as `Num.lt`, with −0 less than +0. -/
def Num.ltZ (a b : Num) : Bool :=
  Num.lt a b || (a.isZero && b.isZero && a.neg? && !b.neg?)

/-- `⌊log2 |x|⌋` of a finite non-zero number. -/
def Num.log2 : Num → Int
  | .fin _ m e _ => (bitLen m : Int) - 1 + e
  | _ => 0

/-- Truncate towards zero to `p` significant bits (R85). -/
def Num.trunc (p : Nat) : Num → Num
  | .fin s m e st =>
    let d := bitLen m - p
    .fin s (m >>> d) (e + d) (st && d == 0)
  | x => x

/-- How a rounding is decided (R56): to nearest even, or stochastic with a 16-bit draw (R57). -/
inductive Sel where
  | rne
  | sr (u : Nat)
  deriving DecidableEq, Repr

/-- Round the magnitude `(m + θ) · 2^e` to a multiple of `2^q`; answers the multiple (R56, R57). -/
def roundMag (m : Nat) (e : Int) (st : Bool) (q : Int) (sel : Sel) : Nat :=
  if q ≤ e then m <<< (e - q).toNat
  else
    let sh := (q - e).toNat
    let lo := m >>> sh
    let rem := m % 2 ^ sh
    let up : Bool := match sel with
      | .rne => let half := 2 ^ (sh - 1); decide (half < rem) || (rem == half && (st || lo % 2 == 1))
      | .sr u => decide (u < (rem <<< 16) >>> sh)
    if up then lo + 1 else lo

end Sys2Proof.Machine
end

