-- ==== Sys2Proof/Machine/Flags.lean ====
section
/-! DEFINITION. The format flag word of R55 and the arithmetic of R52 and R54 that sets its bits: reading operands,
rounding results, comparing, and the conversions of R58 and R59. -/
namespace Sys2Proof.Machine

/-- The sticky format flag word (R55). -/
abbrev FFlags := BitVec 8

def fInvalid : FFlags := 0x01#8
def fNanIn : FFlags := 0x02#8
def fOvf : FFlags := 0x04#8
def fSat : FFlags := 0x08#8
def fDenorm : FFlags := 0x10#8
def fScaleBad : FFlags := 0x20#8

/-- A flag when a condition holds. -/
def fIf (c : Bool) (f : FFlags) : FFlags := if c then f else 0#8

/-- Storage width of a format code in bits (R41). -/
def fmtWidth (c : Nat) : Nat :=
  match c with
  | 0 => 64 | 1 => 32 | 2 => 16 | 3 => 16 | 4 => 8 | 5 => 8 | 6 => 6 | 7 => 6 | 8 => 4
  | 9 => 32 | 10 => 16 | 11 => 8 | 12 => 4 | 13 => 8 | 14 => 8 | _ => 0

/-- Is it a float format (R41)? -/
def fmtIsFloat (c : Nat) : Bool := c ≤ 8

/-- Is it an integer format (R41)? -/
def fmtIsInt (c : Nat) : Bool := 9 ≤ c && c ≤ 12

/-- Exponent bits, mantissa bits and bias of a float format (R43). -/
def fmtParams (c : Nat) : Nat × Nat × Nat :=
  match c with
  | 0 => (11, 52, 1023) | 1 => (8, 23, 127) | 2 => (5, 10, 15) | 3 => (8, 7, 127)
  | 4 => (4, 3, 7) | 5 => (5, 2, 15) | 6 => (3, 2, 3) | 7 => (2, 3, 1) | _ => (2, 1, 1)

/-- Does the format have the IEEE special encodings, an infinity and NaNs at the top exponent (R44)? -/
def fmtIeee (c : Nat) : Bool := c ≤ 3 || c == 5

/-- The canonical NaN that the device writes; `0` where the format has none (R44). -/
def canonNan (c : Nat) : Nat :=
  match c with
  | 0 => 0x7FF8_0000_0000_0000 | 1 => 0x7FC0_0000 | 2 => 0x7E00 | 3 => 0x7FC0 | 4 => 0x7F | 5 => 0x7E | _ => 0

/-- The encoding of the largest finite magnitude (R43). -/
def maxFinBits (c : Nat) : Nat :=
  match c with
  | 0 => 0x7FEF_FFFF_FFFF_FFFF | 1 => 0x7F7F_FFFF | 2 => 0x7BFF | 3 => 0x7F7F | 4 => 0x7E | 5 => 0x7B
  | 6 => 0x1F | 7 => 0x1F | _ => 0x7

/-- The number that a float encoding stands for, before any flush (R42, R44, R45). -/
def decFloat (c b : Nat) : Num :=
  let (eb, mb, bias) := fmtParams c
  let s := bitOf b (eb + mb)
  let e := bitsOf b mb eb
  let m := bitsOf b 0 mb
  if fmtIeee c && e == 2 ^ eb - 1 then if m = 0 then .inf s else .nan
  else if c == 4 && e == 15 && m == 7 then .nan
  else if e = 0 then .fin s m (1 - (bias : Int) - mb) false
  else .fin s (2 ^ mb + m) ((e : Int) - bias - mb) false

/-- The number an element of any element format stands for, before any flush (R42, R46). -/
def decElem (c b : Nat) : Num :=
  if fmtIsInt c then Num.ofInt (sInt (fmtWidth c) b) else decFloat c b

/-- An element read, its subnormals as signed zero where `flush` is set. -/
def readFlush (flush : Bool) (c b : Nat) : Num × FFlags :=
  match decElem c b with
  | .fin s m e st =>
    if flush && m != 0 && bitsOf b (fmtParams c).2.1 (fmtParams c).1 == 0 then (Num.zero s, fDenorm)
    else (.fin s m e st, 0#8)
  | x => (x, 0#8)

/-- An element read as an operand: FP32 and FP64 subnormals are read as signed zero (R52). -/
def readElem (c b : Nat) : Num × FFlags := readFlush (c ≤ 1) c b

/-- An element widened to FP32 or FP64: a BF16 subnormal too is read as signed zero (R53, R404). -/
def readWiden (c b : Nat) : Num × FFlags := readFlush (c ≤ 1 || c == 3) c b

/-- A fine scale byte: E8M0 (R47) when `e8` is set, else UE4M3 (R48). -/
def decScale (e8 : Bool) (b : Nat) : Num :=
  if e8 then if b = 0xFF then .nan else Num.pow2 ((b : Int) - 127)
  else if 0x80 ≤ b || b = 0x7F then .nan else decFloat 4 b

/-- The encoding of a sign and a magnitude `n · 2^q` that the float format holds exactly. -/
def encFin (c : Nat) (s : Bool) (n : Nat) (q : Int) : Nat :=
  let (eb, mb, bias) := fmtParams c
  let sb := b2n s <<< (eb + mb)
  if n = 0 then sb
  else
    let l := (bitLen n : Int) - 1 + q          -- exponent of the leading bit
    let emin := 1 - (bias : Int)
    if l < emin then sb + shiftNat n (q - (emin - mb))
    else sb + ((l + bias).toNat <<< mb) + (shiftNat n (q - (l - mb)) - 2 ^ mb)

/-- The encoding of an infinity; only for formats that have one. -/
def encInf (c : Nat) (s : Bool) : Nat :=
  let (eb, mb, _) := fmtParams c
  (b2n s <<< (eb + mb)) + ((2 ^ eb - 1) <<< mb)

/-- The largest finite number of a float format. -/
def maxFin (c : Nat) : Num := decFloat c (maxFinBits c)

/-- Round a number that is not NaN to a float format: the table of R58, with R52 for FP32 and FP64. -/
def roundFloat (c : Nat) (x : Num) (sel : Sel) : Nat × FFlags :=
  let (eb, mb, bias) := fmtParams c
  let sb (s : Bool) := b2n s <<< (eb + mb)
  match x with
  | .nan => (canonNan c, 0#8)
  | .inf s =>
    if fmtIeee c then (encInf c s, 0#8) else (sb s + maxFinBits c, fSat)
  | .fin s m e st =>
    if m = 0 && !st then (sb s, 0#8)
    else
      let lead := (bitLen m : Int) - 1 + e
      let emin := 1 - (bias : Int)
      let big := Num.lt (maxFin c) (.fin false m e false) ||
        (st && Num.eq (maxFin c) (.fin false m e false))
      if 4 ≤ c && big then (sb s + maxFinBits c, fSat)
      else
        let q := if c ≤ 1 then lead - mb else max (lead - mb) (emin - mb)
        let n := roundMag m e st q sel
        if Num.lt (maxFin c) (.fin false n q false) then (encInf c s, fOvf)
        else if c ≤ 1 && n != 0 && decide ((bitLen n : Int) - 1 + q < emin) then (sb s, fDenorm)
        else (encFin c s n q, 0#8)

/-- Round to a `w`-bit integer and saturate (R58). -/
def roundInt (w : Nat) (x : Num) (sel : Sel) : Int × FFlags :=
  let top : Int := 2 ^ (w - 1) - 1
  let bot : Int := -(2 ^ (w - 1))
  match x with
  | .nan => (0, fNanIn ||| fInvalid)
  | .inf s => (if s then bot else top, fSat)
  | .fin s m e st =>
    let n : Int := (roundMag m e st 0 sel : Nat)
    let v := if s then -n else n
    let beyond := if s then decide (2 ^ (w - 1) + 1 ≤ shiftNat m e) else decide (2 ^ (w - 1) ≤ shiftNat m e)
    if beyond then (if s then bot else top, fSat)
    else if v < bot then (bot, fSat)
    else if top < v then (top, fSat)
    else (v, 0#8)

/-- A conversion to a format: the whole table of R58, NaN sources included. -/
def convert (c : Nat) (x : Num) (sel : Sel) : Nat × FFlags :=
  if fmtIsInt c then
    let (v, f) := roundInt (fmtWidth c) x sel
    (uBits (fmtWidth c) v, f)
  else match x with
    | .nan => if c ≤ 5 then (canonNan c, fNanIn) else (maxFinBits c, fNanIn ||| fSat)
    | _ => roundFloat c x sel

/-- The result of an arithmetic operation in a float format: an operation that made the NaN sets INVALID, an operand
that was one sets NAN_IN (R54, R55). -/
def arith (c : Nat) (nanIn : Bool) (r : Num × Bool) (sel : Sel) : Nat × FFlags :=
  let (b, f) := roundFloat c r.1 sel
  (b, f ||| fIf nanIn fNanIn ||| fIf (r.2 && !nanIn) fInvalid)

/-- Addition in a float format (R54). -/
def fpAdd (c a b : Nat) (sel : Sel) : Nat × FFlags :=
  let (x, f) := readElem c a
  let (y, g) := readElem c b
  let (r, h) := arith c (x.isNan || y.isNan) (Num.add x y) sel
  (r, f ||| g ||| h)

/-- Multiplication in a float format (R54). -/
def fpMul (c a b : Nat) (sel : Sel) : Nat × FFlags :=
  let (x, f) := readElem c a
  let (y, g) := readElem c b
  let (r, h) := arith c (x.isNan || y.isNan) (Num.mul x y) sel
  (r, f ||| g ||| h)

/-- Fused multiply-add `a × b + d`, rounded once (R54). -/
def fpFma (c a b d : Nat) (sel : Sel) : Nat × FFlags :=
  let (x, f) := readElem c a
  let (y, g) := readElem c b
  let (z, h) := readElem c d
  let (p, i1) := Num.mul x y
  let (t, i2) := Num.add p z
  let (r, k) := arith c (x.isNan || y.isNan || z.isNan) (t, i1 || i2) sel
  (r, f ||| g ||| h ||| k)

/-- Division in a float format (R54). -/
def fpDiv (c a b : Nat) (sel : Sel) : Nat × FFlags :=
  let (x, f) := readElem c a
  let (y, g) := readElem c b
  let (r, h) := arith c (x.isNan || y.isNan) (Num.div x y) sel
  (r, f ||| g ||| h)

/-- Square root in a float format (R54). -/
def fpSqrt (c a : Nat) (sel : Sel) : Nat × FFlags :=
  let (x, f) := readElem c a
  let (r, h) := arith c x.isNan (Num.sqrt x) sel
  (r, f ||| h)

/-- The encoding with its sign bit turned; a NaN becomes the canonical NaN (R45). -/
def fpNeg (c a : Nat) : Nat :=
  let (eb, mb, _) := fmtParams c
  if (decFloat c a).isNan then canonNan c else a ^^^ (1 <<< (eb + mb))

/-- Subtraction in a float format (R54). -/
def fpSub (c a b : Nat) (sel : Sel) : Nat × FFlags := fpAdd c a (fpNeg c b) sel

/-- What an operand is when it is written back unchanged: a NaN as the canonical NaN (R45), a subnormal as zero
where R52 flushes it. -/
def canonElem (c a : Nat) : Nat :=
  let (x, _) := readElem c a
  match x with
  | .nan => canonNan c
  | .fin s m _ _ => if m = 0 then b2n s <<< ((fmtParams c).1 + (fmtParams c).2.1) else a
  | _ => a

/-- MIN and MAX (R141); `hi` chooses MAX. Answers also whether the first operand was taken. -/
def fpMinMax (hi : Bool) (c a b : Nat) : Nat × FFlags × Bool :=
  let (x, f) := readElem c a
  let (y, g) := readElem c b
  let fl := f ||| g ||| fIf (x.isNan || y.isNan) fNanIn
  if x.isNan && y.isNan then (canonNan c, fl, true)
  else if x.isNan then (canonElem c b, fl, false)
  else if y.isNan then (canonElem c a, fl, true)
  else if (if hi then Num.ltZ x y else Num.ltZ y x) then (canonElem c b, fl, false)
  else (canonElem c a, fl, true)

/-- The compares of R141: `0` equal, `1` less, `2` less or equal. -/
def fpCompare (op c a b : Nat) : Bool × FFlags :=
  let (x, f) := readElem c a
  let (y, g) := readElem c b
  if x.isNan || y.isNan then (false, f ||| g ||| fNanIn)
  else
    ((match op with
      | 0 => Num.eq x y
      | 1 => Num.lt x y
      | _ => Num.lt x y || Num.eq x y), f ||| g)

/-- What reading an operand that is written back unchanged sets (R52, R55). -/
def passFlags (c a : Nat) : FFlags := let x := readElem c a; x.2 ||| fIf x.1.isNan fNanIn

/-- An operand written back as it is (R45, R52, R55). -/
def passElem (c a : Nat) : Nat × FFlags := (canonElem c a, passFlags c a)

/-- A conversion between two formats (R58, R59): the source is read as an operand, or widened (R53), then converted. -/
def convertElem (src dst b : Nat) (sel : Sel) : Nat × FFlags :=
  let (x, f) := if dst ≤ 1 then readWiden src b else readElem src b
  let (r, g) := convert dst x sel
  (r, f ||| g)

/-- Does the destination float format hold every value of the source float format (R59, R173)? FP32 does not hold
BF16, whose subnormals it flushes (R53). -/
def holdsAll (dst src : Nat) : Bool :=
  if dst == src then true
  else match dst with
    | 0 => src ≤ 8
    | 1 => src == 2 || (4 ≤ src && src ≤ 8)
    | 2 | 3 => 4 ≤ src && src ≤ 8
    | 4 => 6 ≤ src && src ≤ 8
    | 5 => src == 6 || src == 8
    | 6 | 7 => src == 8
    | _ => false

end Sys2Proof.Machine
end

