-- ==== Sys2Proof/Machine/Philox.lean ====
section
/-! DEFINITION. The stochastic-rounding generator: Philox-4×32-10 and the counters of R65 to R68. -/
namespace Sys2Proof.Machine

/-- One round of R65 on the counter words and the two key words. -/
def philoxRound (c0 c1 c2 c3 k0 k1 : Nat) : Nat × Nat × Nat × Nat :=
  let p0 := 0xD2511F53 * c0
  let p1 := 0xCD9E8D57 * c2
  (((p1 >>> 32) ^^^ c1) ^^^ k0, p1 % 2 ^ 32, ((p0 >>> 32) ^^^ c3) ^^^ k1, p0 % 2 ^ 32)

/-- `n` rounds, the key words advancing after each (R65). -/
def philoxLoop : Nat → Nat → Nat → Nat → Nat → Nat → Nat → Nat × Nat × Nat × Nat
  | 0, c0, c1, c2, c3, _, _ => (c0, c1, c2, c3)
  | n + 1, c0, c1, c2, c3, k0, k1 =>
    let (d0, d1, d2, d3) := philoxRound c0 c1 c2 c3 k0 k1
    philoxLoop n d0 d1 d2 d3 ((k0 + 0x9E3779B9) % 2 ^ 32) ((k1 + 0xBB67AE85) % 2 ^ 32)

/-- The 128-bit output word of R65. -/
def philox (key c0 c1 c2 c3 : Nat) : Nat :=
  let (d0, d1, d2, d3) := philoxLoop 10 c0 c1 c2 c3 (key % 2 ^ 32) ((key >>> 32) % 2 ^ 32)
  d0 + (d1 <<< 32) + (d2 <<< 64) + (d3 <<< 96)

/-- Draw `j` of the counter that R67 builds from its five fields. -/
def draw (key stream tid index sub step j : Nat) : Nat :=
  let c0 := index % 2 ^ 32
  let c1 := bitsOf index 32 8 + (sub % 2 ^ 20) <<< 8 + (stream % 16) <<< 28
  let c2 := step % 2 ^ 32
  let c3 := bitsOf step 32 16 + (tid % 2 ^ 16) <<< 16
  bitsOf (philox key c0 c1 c2 c3) (16 * (j % 8)) 16

/-- A rounding selection, with the draw that R68 assigns to element `idx` in the streams that number draws by
element. -/
def elemSel (sr : Bool) (key stream tid idx sub step : Nat) : Sel :=
  if sr then .sr (draw key stream tid (idx / 8) sub step (idx % 8)) else .rne

/-- A rounding selection, with the draw that R68 assigns to a running sum in the streams that number draws by chunk. -/
def chunkSel (sr : Bool) (key stream tid idx q step : Nat) : Sel :=
  if sr then .sr (draw key stream tid idx (q / 8) step (q % 8)) else .rne

end Sys2Proof.Machine
end

