-- ==== Sys2Proof/Machine/Scale.lean ====
section
/-! DEFINITION. Scaled tensors: what an element stands for (R60 to R63) and how a block is quantised (R64). -/
namespace Sys2Proof.Machine

/-- Block size of a scaling mode (R60); 1 in mode NONE. -/
def blockSize (mode : Nat) : Nat := match mode with | 0 => 1 | 3 => 32 | _ => 16

/-- Does the coarse scale meet R61: finite, normal and non-zero for a float code, zero for an integer code? -/
def coarseOk (fmt coarse : Nat) : Bool :=
  if fmtIsInt fmt then coarse == 0
  else let e := bitsOf coarse 23 8
       e != 0 && e != 255

/-- The coarse scale as a number: 1 for integers (R61, R87). -/
def coarseNum (fmt coarse : Nat) : Num := if fmtIsInt fmt then Num.one else decFloat 1 coarse

/-- FP32 1.0. -/
def one32 : Nat := 0x3F80_0000

/-- Is the tensor scaled in the sense of R146: a float format with a fine mode or a coarse scale other than 1? -/
def isScaled (fmt mode coarse : Nat) : Bool := fmtIsFloat fmt && (mode != 0 || coarse != one32)

/-- A fine scale with the flags of its use (R62). -/
def useScale (mode b : Nat) : Num × FFlags :=
  if mode = 0 then (Num.one, 0#8)
  else match decScale (mode != 1) b with
    | .nan => (.nan, fScaleBad ||| fNanIn)
    | s => (s, 0#8)

/-- The reciprocal of the coarse scale, rounded to 24 significant bits with an unbounded exponent (R64 step 1). -/
def recip24 (c : Num) : Num :=
  match (Num.div Num.one c).1 with
  | .fin s m e st =>
    let q := (bitLen m : Int) + e - 24
    .fin s (roundMag m e st q .rne) q false
  | x => x

/-- The largest magnitude of a block, NaN elements ignored (R64 step 2). -/
def amaxOf : List Num → Num
  | [] => Num.zero false
  | x :: r => let a := amaxOf r; if x.isNan then a else if Num.lt a x.abs then x.abs else a

/-- Exponent of the largest finite value of a short format (R64). -/
def emaxOf (fmt : Nat) : Int := match fmt with | 4 => 8 | 5 => 15 | 6 => 4 | _ => 2

/-- The smallest UE4M3 code from `k` up whose value times `mx` reaches `a`; `0x7E` at the top (R64). -/
def ue4m3At (a mx : Num) : Nat → Nat → Nat
  | 0, k => k
  | n + 1, k => if Num.lt (Num.mul (decFloat 4 k) mx).1 a then ue4m3At a mx n (k + 1) else k

/-- The fine scale byte chosen for a block whose step-3 value is `a` (R64 step 4). -/
def chooseScale (fmt mode : Nat) (a : Num) : Nat :=
  if mode = 1 then
    if a.isZero then 0x38 else ue4m3At a (maxFin fmt) 0x7D 1
  else match a with
    | .inf _ => 0xFE
    | a => if a.isZero then 0x00
           else (max 0 (min 254 (Num.log2 a - emaxOf fmt + 127))).toNat

/-- The fine scale byte of a block of elements (R64 steps 2 to 4). -/
def blockScale (fmt mode coarse : Nat) (xs : List Num) : Nat :=
  chooseScale fmt mode (Num.mul (amaxOf xs) (recip24 (coarseNum fmt coarse)).abs).1

/-- One element written under a fine scale byte: the conversion of `x × r / s` (R64 step 5). -/
def quantise (fmt mode coarse sb : Nat) (x : Num) (sel : Sel) : Nat × FFlags :=
  if fmtIsInt fmt then convert fmt x sel
  else
    let y := (Num.mul x (recip24 (coarseNum fmt coarse))).1
    let z := if mode = 0 then y else (Num.div y (decScale (mode != 1) sb)).1
    convert fmt z sel

end Sys2Proof.Machine
end

