-- ==== Sys2Proof/Machine/Operands.lean ====
section
/-! DEFINITION. The tensor descriptor of R75 and the operand forms it gives: the checks that every engine makes of it
and the reading and writing of its elements, fine scales and tangents. Addresses are SRAM byte addresses; `base` is
where the site's window begins in the device physical map. -/
namespace Sys2Proof.Machine

/-- The tensor descriptor (R75). -/
structure TDesc where
  fmt : Nat
  scale : Nat
  dual : Bool
  tfmt : Nat
  tid : Nat
  kickoff : Nat
  gen : Nat
  step : Nat
  coarse : Nat
  addr : Nat
  saddr : Nat
  rows : Nat
  cols : Nat
  rstride : Nat
  rowOrg : Nat
  colOrg : Nat
  totCols : Nat
  totRows : Nat
  koen : Bool
  taddr : Nat
  tstride : Nat
  deriving DecidableEq, Repr

/-- The fields of a 512-bit descriptor (R17, R75). -/
def TDesc.ofNat (d : Nat) : TDesc where
  fmt := bitsOf d 0 4
  scale := bitsOf d 4 2
  dual := bitOf d 6
  tfmt := bitsOf d 8 4
  tid := bitsOf d 16 16
  kickoff := bitsOf d 32 32
  gen := bitsOf d 64 16
  step := bitsOf d 80 48
  coarse := bitsOf d 128 32
  addr := bitsOf d 160 21
  saddr := bitsOf d 192 21
  rows := bitsOf d 224 16
  cols := bitsOf d 240 16
  rstride := bitsOf d 256 32
  rowOrg := bitsOf d 288 32
  colOrg := bitsOf d 320 32
  totCols := bitsOf d 352 32
  totRows := bitsOf d 384 32
  koen := bitOf d 416
  taddr := bitsOf d 448 21
  tstride := bitsOf d 480 32

/-- Packed byte length of one row (R49). -/
def TDesc.rowBytes (t : TDesc) : Nat := cdiv (t.cols * fmtWidth t.fmt) 8

/-- Byte length of one tangent row (R116). -/
def TDesc.trowBytes (t : TDesc) : Nat := t.cols * fmtWidth t.tfmt / 8

/-- R50: the innermost extent fills whole packing groups. The model reads it of the slice's COLS, which R75 calls the slice's
innermost extent, and asks nothing of TOT_COLS (log entry 68). -/
def TDesc.packOk (t : TDesc) : Bool :=
  match fmtWidth t.fmt with | 4 => t.cols % 2 == 0 | 6 => t.cols % 4 == 0 | _ => true

/-- The slice lies in the tensor (R76). -/
def TDesc.inTensor (t : TDesc) : Bool := t.rowOrg + t.rows ≤ t.totRows && t.colOrg + t.cols ≤ t.totCols

/-- Shape conditions common to every use: stride, packing and place in the tensor (R50, R76). -/
def TDesc.shapeOk (t : TDesc) : Bool := t.rowBytes ≤ t.rstride && t.packOk && t.inTensor

/-- The value and tangent pairs of R115. -/
def TDesc.dualOk (t : TDesc) : Bool :=
  if t.dual then (1 ≤ t.fmt && t.fmt ≤ 8 && t.tfmt == 1) || (t.fmt == 0 && t.tfmt == 0) else t.tfmt == 0

/-- The tangent stride of R116. -/
def TDesc.tstrideOk (t : TDesc) : Bool := !t.dual || t.trowBytes ≤ t.tstride

/-- The scaling conditions of R61: the coarse scale, a fine mode only for codes 0x4 to 0x8, whole blocks. -/
def TDesc.scaleOk (t : TDesc) : Bool :=
  coarseOk t.fmt t.coarse && (t.scale == 0 || (4 ≤ t.fmt && t.fmt ≤ 8)) && t.cols % blockSize t.scale == 0

/-- Linear element index of slice element (i, j) (R75). -/
def TDesc.index (t : TDesc) (i j : Nat) : Nat := (t.rowOrg + i) * t.totCols + t.colOrg + j

/-- R69: every linear index is below 2^40. -/
def TDesc.indexOk (t : TDesc) : Bool :=
  t.rows == 0 || t.cols == 0 || t.index (t.rows - 1) (t.cols - 1) < 2 ^ 40

/-- A byte range: first address and length. -/
abbrev Range := Nat × Nat

/-- The bytes of the value rows (R49, R75). -/
def TDesc.dataRanges (t : TDesc) : List Range :=
  (List.range t.rows).map fun i => (t.addr + i * t.rstride, t.rowBytes)

/-- The bytes of the fine-scale array (R62). -/
def TDesc.scaleRanges (t : TDesc) : List Range :=
  if t.scale = 0 then [] else [(t.saddr, t.rows * (t.cols / blockSize t.scale))]

/-- The bytes of the tangent slice (R116). -/
def TDesc.tangentRanges (t : TDesc) : List Range :=
  if t.dual then (List.range t.rows).map fun i => (t.taddr + i * t.tstride, t.trowBytes) else []

/-- Every byte of the slice (R78). -/
def TDesc.ranges (t : TDesc) : List Range := t.dataRanges ++ t.scaleRanges ++ t.tangentRanges

/-- The bits of element (i, j). -/
def TDesc.elemBits (t : TDesc) (m : Mem) (base i j : Nat) : Nat :=
  m.bits (base + t.addr + i * t.rstride) (j * fmtWidth t.fmt) (fmtWidth t.fmt)

/-- The fine scale byte of element (i, j) (R62). -/
def TDesc.scaleByte (t : TDesc) (m : Mem) (base i j : Nat) : Nat :=
  if t.scale = 0 then 0
  else (m.get (base + t.saddr + i * (t.cols / blockSize t.scale) + j / blockSize t.scale)).toNat

/-- Element times fine scale, exactly, with the flags of reading it (R52, R62). The coarse scale is left out. -/
def TDesc.elemS (t : TDesc) (m : Mem) (base i j : Nat) : Num × FFlags :=
  let (x, f) := readElem t.fmt (t.elemBits m base i j)
  let (s, g) := useScale t.scale (t.scaleByte m base i j)
  let (p, bad) := if t.scale = 0 then (x, false) else Num.mul x s
  (p, f ||| g ||| fIf x.isNan fNanIn ||| fIf bad fInvalid)

/-- The full decoded value c × s × e, exactly (R62). -/
def TDesc.elemV (t : TDesc) (m : Mem) (base i j : Nat) : Num × FFlags :=
  let (x, f) := t.elemS m base i j
  ((Num.mul x (coarseNum t.fmt t.coarse)).1, f)

/-- The tangent of element (i, j); +0 where the tensor is not dual (R116, R119). -/
def TDesc.tangent (t : TDesc) (m : Mem) (base i j : Nat) : Num × FFlags :=
  if t.dual then
    let (x, f) := readElem t.tfmt (m.num (base + t.taddr + i * t.tstride + j * (fmtWidth t.tfmt / 8)) (fmtWidth t.tfmt / 8))
    (x, f ||| fIf x.isNan fNanIn)
  else (Num.zero false, 0#8)

/-- Write the bits of element (i, j). -/
def TDesc.putElem (t : TDesc) (m : Mem) (base i j v : Nat) : Mem :=
  m.setBits (base + t.addr + i * t.rstride) (j * fmtWidth t.fmt) (fmtWidth t.fmt) v

/-- Write the fine scale byte of the block of element (i, j). -/
def TDesc.putScale (t : TDesc) (m : Mem) (base i j v : Nat) : Mem :=
  if t.scale = 0 then m
  else m.set (base + t.saddr + i * (t.cols / blockSize t.scale) + j / blockSize t.scale) (BitVec.ofNat 8 v)

/-- Write the tangent of element (i, j). -/
def TDesc.putTangent (t : TDesc) (m : Mem) (base i j v : Nat) : Mem :=
  m.setNum (base + t.taddr + i * t.tstride + j * (fmtWidth t.tfmt / 8)) (fmtWidth t.tfmt / 8) v

/-- Linear index and tensor id of the tangent of a tensor (R117). -/
def TDesc.tanId (t : TDesc) : Nat := t.tid ^^^ 0x8000

end Sys2Proof.Machine
end

