-- ==== Sys2Proof/Machine/Regs.lean ====
section
/-! DEFINITION. The register tables of the blocks outside the tile sites (R39): where each register sits, which of its
bits are RW, W1C, W1S or WO (R13), its reset value, and the encodings that R2 and R3 refuse. The registers of the tile
sites and the time base are views of their own state and have only their masks here. -/
namespace Sys2Proof.Machine

/-- Bits `[hi : lo]` as a mask (R6). -/
def msk (hi lo : Nat) : Nat := 2 ^ (hi + 1) - 2 ^ lo

/-- One register: the masks of its fields by access code, its reset value (R13, R16), and who may write it beside host
privilege and the MP: `0` nobody else, `1` host privilege alone, `2` the MP alone, `3` the TAP too. -/
structure RegSpec where
  rw : Nat := 0
  w1c : Nat := 0
  w1s : Nat := 0
  wo : Nat := 0
  reset : Nat := 0
  who : Nat := 0
  deriving DecidableEq, Repr

-- Block bases (R39) and register offsets, as CSR offsets.
def oDevId : Nat := 0x0000
def oDevSerial : Nat := 0x0008
def oDevStrap : Nat := 0x0010
def oDevStat : Nat := 0x0018
def oDevRst : Nat := 0x0020
def oDevPwr : Nat := 0x0028
def oDevTherm : Nat := 0x0030
def oDevDbg : Nat := 0x0038
def oDevUid (n : Nat) : Nat := 0x0100 + 16 * n
def oBenchFree : Nat := 0x0E00
def oSubst (n : Nat) : Nat := 0x1000 + 8 * n
def oTbTime : Nat := 0x100000
def oTbSet : Nat := 0x100008
def oTbCfg : Nat := 0x100010
def oTbStat : Nat := 0x100018
def oTbOffset : Nat := 0x100020
def oTbFreq : Nat := 0x100028
def oTbLate : Nat := 0x100030
def oMpStat : Nat := 0x200000
def oMpCtl : Nat := 0x200008
def oMpLoad : Nat := 0x200010
def oMpShed : Nat := 0x200018
def oMpWdt : Nat := 0x200020
def oMpFw : Nat := 0x200028
def oMpFwStage : Nat := 0x200030
def oMpEpoch : Nat := 0x200038
def oMpDigest (n : Nat) : Nat := 0x200040 + 8 * n
def oMpCfgchk : Nat := 0x200060
def oMpAgree : Nat := 0x200068
def oMpAgreeMin (n : Nat) : Nat := 0x200080 + 8 * n
def oMpAgreeMax (n : Nat) : Nat := 0x2000A0 + 8 * n
def oMpRef : Nat := 0x2000C0
def oMpRefCoord : Nat := 0x2000C8
def oMpWkey (n : Nat) : Nat := 0x2000D0 + 8 * n
def oMpWhistle : Nat := 0x200100
def oMpSubst : Nat := 0x200108
def oMpStep (q : Nat) : Nat := 0x200200 + 8 * q
def oHiPort (p : Nat) : Nat := 0x300000 + 8 * p
def oHiBar2 (p : Nat) : Nat := 0x300010 + 8 * p
def oHiQ (p f k r : Nat) : Nat := 0x310000 + (9 * p + f) * 0x8000 + 0x100 + k * 0x20 + 8 * r
def oPgEpoch : Nat := 0x400000
def oPgCtl : Nat := 0x400008
def oPgStat : Nat := 0x400010
def oPgStageAddr : Nat := 0x400018
def oPgStageData : Nat := 0x400020
def oPgPoolBase (p : Nat) : Nat := 0x400100 + 16 * p
def oPgPoolSize (p : Nat) : Nat := 0x400108 + 16 * p
def oPgCtx (q r : Nat) : Nat := 0x401000 + 0x100 * q + 8 * r
def oHm (k r : Nat) : Nat := 0x1000000 + 0x100000 * k + r
def oFb (p r : Nat) : Nat := 0x2000000 + 0x100000 * p + r
def oRtr (r : Nat) : Nat := 0x2A00000 + r
def oTl (s r : Nat) : Nat := 0x4000000 + 0x10000 * s + r
def oErr (r : Nat) : Nat := 0x8000000 + r
def oSq (q r : Nat) : Nat := 0x9000000 + 0x40 * q + r
def oSqArb : Nat := 0x9000400
def oSqTile (n : Nat) : Nat := 0x9001000 + 8 * n
def oDg (r : Nat) : Nat := 0xA000000 + r
def oTr (r : Nat) : Nat := 0xB000000 + r

/-- DEV block (R24, R28, R502, R508, R509). -/
def specDev (o : Nat) : Option RegSpec :=
  if o % 8 != 0 then none
  else if o = 0x20 then some { wo := msk 39 29 + msk 11 0 }
  else if o = 0x28 then some { rw := msk 15 0, reset := 3800 + 16 * 2 ^ 24, who := 1 }
  else if o = 0x30 then some { w1c := msk 1 1 }
  else if o = 0x38 then some { rw := msk 1 1, who := 1 }
  else if 0x100 ≤ o && o < 0x1A0 then some { reset := if o % 16 = 0 then (o / 16 - 16) * 2 ^ 52 else 0 }
  else if o ≤ 0x38 then some {}
  else if o = 0xE00 then some { reset := msk 23 0 }
  else if 0x1000 ≤ o && o < 0x1C00 then some { rw := msk 31 31 + msk 8 0, reset := (o - 0x1000) / 8 }
  else none

/-- TB block (R318, R319). -/
def specTb (o : Nat) : Option RegSpec :=
  if o = 0x08 then some { wo := msk 63 0 }
  else if o = 0x10 then some { rw := msk 23 8 + msk 5 3 + msk 1 0, reset := 100 * 2 ^ 8 + 3 * 2 ^ 4 }
  else if o = 0x18 then some { w1c := msk 7 5, reset := 63 * 2 ^ 24 + 15 * 2 ^ 20 }
  else if o = 0x00 || o = 0x20 || o = 0x28 || o = 0x30 then some {}
  else none

/-- MP block (R466, R467). -/
def specMp (o : Nat) : Option RegSpec :=
  if o = 0x00 then some { w1c := msk 11 11 }
  else if o = 0x08 then some { rw := msk 2 2, w1s := msk 1 0, reset := 4, who := 1 }
  else if o = 0x10 || o = 0x28 then some {}
  else if o = 0x18 then some { rw := msk 15 0, reset := 217 * 256 + 153 }
  else if o = 0x20 then some { rw := msk 7 0, w1c := msk 8 8, w1s := msk 12 9, reset := 4 }
  else if o = 0x30 then some { rw := msk 39 12 }
  else if o = 0x38 then some { rw := msk 31 0, who := 1 }
  else if 0x40 ≤ o && o < 0x60 && o % 8 = 0 then some {}
  else if o = 0x60 then some { w1c := msk 24 24 }
  else if o = 0x68 then some { w1s := msk 2 2 }
  else if 0x80 ≤ o && o < 0xC0 && o % 8 = 0 then some {}
  else if o = 0xC0 then some { rw := msk 47 32 + msk 9 8, reset := 2 ^ 32 + 3 * 2 ^ 8 }
  else if o = 0xC8 then some { rw := msk 47 0, who := 1 }
  else if 0xD0 ≤ o && o < 0xF0 && o % 8 = 0 then some { wo := msk 63 0, who := 1 }
  else if o = 0x100 then some {}
  else if o = 0x108 then some { w1c := msk 23 22 }
  else if 0x200 ≤ o && o < 0x240 && o % 8 = 0 then some { rw := msk 47 12 + 1 }
  else none

/-- HI block (R489, R493): port registers and the queue registers of the function regions. -/
def specHi (o : Nat) : Option RegSpec :=
  if o = 0 || o = 8 then some {}
  else if o = 0x10 || o = 0x18 then some { rw := msk 39 30 }
  else if 0x10000 ≤ o && o < 0xA0000 then
    let f := (o - 0x10000) / 0x8000 % 9
    let r := (o - 0x10000) % 0x8000
    let n := if f = 0 then 1016 else 120
    if 0x100 ≤ r && r < 0x100 + 0x20 * n && r % 8 = 0 then
      match (r - 0x100) % 0x20 / 8 with
      | 0 => some { rw := msk 44 8 + 1, reset := 0x400 }
      | 1 => some { rw := msk 44 8, reset := 0x400 }
      | 2 => some { rw := msk 47 32 + msk 15 0 }
      | _ => some {}
    else none
  else none

/-- PG block (R301 to R303). -/
def specPg (o : Nat) : Option RegSpec :=
  if o = 0x00 then some {}
  else if o = 0x08 then some { w1s := msk 1 0 }
  else if o = 0x10 then some { w1c := msk 18 18 }
  else if o = 0x18 then some { rw := msk 51 3 }
  else if o = 0x20 then some { wo := msk 63 0 }
  else if o = 0x100 || o = 0x110 then some { rw := msk 46 21 }
  else if o = 0x108 || o = 0x118 then some { rw := msk 23 0 }
  else if 0x1000 ≤ o && o < 0x1800 && o % 0x100 < 0x40 && o % 8 = 0 then
    match o % 0x100 / 8 with
    | 0 => some { rw := msk 51 12 + 1 }
    | 1 => some { rw := msk 55 32 + msk 23 0 }
    | 3 => some { rw := msk 63 60 + msk 47 5, reset := 4 * 2 ^ 60 }
    | 4 => some { w1s := 1 }
    | 5 => some { w1c := msk 5 5 }
    | 7 => some { wo := msk 1 0 }
    | _ => some {}
  else none

/-- One HBM stack's registers (R299, R300, R503). -/
def specHm (o : Nat) : Option RegSpec :=
  if o = 0x00 then some { w1c := 1, reset := 8 * 2 ^ 12 + 3 * 2 ^ 8 }
  else if o = 0x08 then some { w1c := msk 63 63 }
  else if o = 0x10 || o = 0x100 || o = 0x200 || o = 0x208 then some {}
  else if o = 0x18 then some { rw := msk 16 0, reset := 2 ^ 16 + 24 }
  else if 0x40 ≤ o && o < 0x80 && o % 8 = 0 then some { rw := msk 63 63 + msk 10 0, who := 2 }
  else if o = 0x108 then some { w1c := msk 5 0 }
  else if 0x210 ≤ o && o < 0x300 && o % 8 = 0 then some {}
  else none

/-- One port's registers (R352, R353). -/
def specFb (p o : Nat) : Option RegSpec :=
  if o = 0x00 then
    if p < 8 then some { rw := msk 19 8 + msk 3 0, reset := 10 * 2 ^ 16 + 0xFF0C }
    else some { rw := msk 19 8 + 1, reset := 10 * 2 ^ 16 + 0x0F00 }
  else if o = 0x08 then some { w1s := msk 1 0 }
  else if o = 0x10 then some { w1c := msk 30 29 }
  else if o = 0x28 then some { rw := msk 47 0 }
  else if o = 0x18 || o = 0x20 || o = 0x30 || o = 0x38 || o = 0x40 then some {}
  else if 8 ≤ p && (o = 0x80 || o = 0x88) then some { rw := msk 63 0 }
  else if 8 ≤ p && 0x100 ≤ o && o < 0x180 && o % 8 = 0 then some { rw := msk 31 16 + msk 3 0 }
  else none

/-- Router registers (R354, R355). -/
def specRtr (o : Nat) : Option RegSpec :=
  match o with
  | 0x00 => some { rw := msk 15 0 }
  | 0x08 => some { rw := msk 15 0 }
  | 0x10 => some { rw := msk 63 0 }
  | 0x18 => some { rw := msk 15 0, reset := 0xC60C }
  | 0x20 => some { rw := msk 15 0 }
  | 0x28 => some { rw := msk 63 56 + msk 49 0,
                   reset := 16 * 2 ^ 56 + 256 * 2 ^ 40 + 10 * 2 ^ 32 + 1000 * 2 ^ 16 + 20 }
  | 0x30 => some { rw := msk 39 21 }
  | 0x38 | 0x40 | 0x48 => some { wo := msk 15 0 }
  | 0x50 => some { w1c := msk 34 32 }
  | 0x58 => some { w1c := msk 63 63 }
  | 0x60 => some {}
  | o => if 0x80 ≤ o && o < 0xC0 && o % 8 = 0 then some { rw := msk 6 0 } else none

/-- ERR block (R440). -/
def specErr (o : Nat) : Option RegSpec :=
  if o = 0x00 || o = 0x20 then some {}
  else if o = 0x08 then some { rw := msk 8 0 }
  else if o = 0x10 then some { rw := 1, who := 1 }
  else if o = 0x18 then some { rw := msk 39 32 + msk 26 0, w1s := msk 40 40, reset := 2 ^ 32 + 2 ^ 24 }
  else if 0x100 ≤ o && o < 0x180 && o % 8 = 0 then some {}
  else if 0x1000 ≤ o && o < 0x5000 && o % 8 = 0 then some {}
  else none

/-- SQ block (R480, R481). -/
def specSq (o : Nat) : Option RegSpec :=
  if o < 0x200 && o % 8 = 0 then
    match o % 0x40 / 8 with
    | 0 => some { rw := msk 63 61 + msk 56 52 + msk 31 0 }
    | 1 => some { rw := msk 63 32 + msk 28 8 + msk 2 0, reset := 2 ^ 17 }
    | 2 => some { rw := msk 55 0 }
    | 3 => some { rw := msk 52 32 + msk 26 24 + msk 19 16 + msk 8 0 }
    | 4 => some {}
    | 5 => some { w1c := msk 7 5 }
    | 6 => some { w1s := msk 1 0 }
    | _ => none
  else if o = 0x400 then some { rw := msk 7 0, reset := 128 }
  else if 0x1000 ≤ o && o < 0x1C00 && o % 8 = 0 then some { rw := msk 3 0 }
  else none

/-- DG block (R429, R430). -/
def specDg (o : Nat) : Option RegSpec :=
  if o = 0x00 || o = 0x10 || o = 0x28 then some {}
  else if o = 0x08 then some { rw := msk 1 1, w1s := 1 }
  else if o = 0x18 then some { rw := msk 63 0 }
  else if o = 0x20 then some { rw := msk 63 60 + msk 47 6, reset := 4 * 2 ^ 60 }
  else if o = 0x30 then some { rw := msk 15 0 }
  else if o = 0x38 then some { rw := msk 63 59 + msk 47 12, reset := 16 * 2 ^ 59 }
  else if o = 0x40 || o = 0x48 then some { rw := msk 29 6 }
  else if 0x1000 ≤ o && o < 0x1400 then
    if o % 16 = 0 then some { rw := msk 21 20 + msk 16 0 }
    else if o % 16 = 8 then some { rw := msk 45 0, reset := 40 * 2 ^ 40 } else none
  else none

/-- TR block (R410 to R412). -/
def specTr (o : Nat) : Option RegSpec :=
  match o with
  | 0x00 => some { rw := msk 63 0 }
  | 0x08 => some { rw := msk 15 0 }
  | 0x10 => some { rw := 1, reset := 1 }
  | 0x18 => some { rw := msk 12 4 + msk 1 0, reset := 2 ^ 8 }
  | 0x20 => some { rw := msk 15 0, reset := 0xFFFF }
  | 0x28 => some { rw := msk 15 0 }
  | 0x30 => some { rw := msk 2 0 }
  | 0x38 => some { rw := msk 8 8, w1s := msk 1 0 }
  | 0x40 => some { w1c := msk 4 1 }
  | 0x48 => some {}
  | 0x50 => some { rw := msk 63 60 + msk 47 5, reset := 4 * 2 ^ 60 }
  | 0x58 => some {}
  | 0x80 => some { rw := msk 60 16 + msk 12 0, reset := 2 ^ 16 + 1 }
  | 0x88 => some { rw := msk 47 10 }
  | 0x90 => some { rw := msk 47 0 }
  | 0x98 => some { w1s := msk 1 0 }
  | 0xA0 => some {}
  | 0xC0 => some { rw := msk 63 60 + msk 47 7, reset := 4 * 2 ^ 60 }
  | 0xC8 => some { w1s := msk 1 0 }
  | 0xD0 => some { w1c := msk 3 3 }
  | 0xD8 => some { w1c := msk 63 63 }
  | _ => none

/-- One site's registers (R107, R159, R207, R229, R264, R381). -/
def specTl (o : Nat) : Option RegSpec :=
  if o % 8 != 0 then none
  else if o = 0x0100 then some { w1s := msk 3 0 }
  else if o = 0x0108 then some { w1c := msk 9 9 }
  else if o = 0x0110 then some { rw := msk 20 2 }
  else if 0x0180 ≤ o && o < 0x0200 then some {}
  else if o = 0x0200 then some { wo := msk 16 16 + msk 14 12 + msk 10 8 + msk 4 0 }
  else if 0x0208 ≤ o && o < 0x0228 then some {}
  else if o = 0x0228 then some { rw := msk 63 0 }
  else if o = 0x0230 then some {}
  else if o = 0x0238 then some { w1c := msk 63 63 }
  else if o = 0x1000 then some { rw := 1 }
  else if o = 0x1008 || o = 0x2000 || o = 0x3000 || o = 0x4000 then some { w1s := msk 1 0 }
  else if o = 0x1020 || o = 0x2010 || o = 0x3010 || o = 0x4010 then some { w1c := msk 5 0 }
  else if o = 0x1028 || o = 0x2018 || o = 0x3018 || o = 0x3020 || o = 0x4018 then some { w1c := msk 63 63 }
  else if o = 0x3008 then some { w1c := msk 12 11 }
  else if o = 0x4008 then some { w1c := msk 17 17 }
  else if (0x1000 ≤ o && o < 0x1040) || (0x2000 ≤ o && o < 0x2038) || (0x2040 ≤ o && o < 0x20C0) ||
      (0x3000 ≤ o && o < 0x3048) || (0x3080 ≤ o && o < 0x3100) || (0x4000 ≤ o && o < 0x4030) then some {}
  else none

/-- The register at a CSR offset; `none` where the space is unmapped (R38, R39). -/
def regSpec (o : Nat) : Option RegSpec :=
  if o < 0x100000 then specDev o
  else if o < 0x200000 then specTb (o - 0x100000)
  else if o < 0x300000 then specMp (o - 0x200000)
  else if o < 0x400000 then specHi (o - 0x300000)
  else if o < 0x500000 then specPg (o - 0x400000)
  else if 0x1000000 ≤ o && o < 0x1C00000 then specHm (o % 0x100000)
  else if 0x2000000 ≤ o && o < 0x2A00000 then specFb ((o - 0x2000000) / 0x100000) (o % 0x100000)
  else if 0x2A00000 ≤ o && o < 0x2B00000 then specRtr (o - 0x2A00000)
  else if 0x4000000 ≤ o && o < 0x5980000 then specTl (o % 0x10000)
  else if 0x8000000 ≤ o && o < 0x9000000 then specErr (o - 0x8000000)
  else if 0x9000000 ≤ o && o < 0xA000000 then specSq (o - 0x9000000)
  else if 0xA000000 ≤ o && o < 0xB000000 then specDg (o - 0xA000000)
  else if 0xB000000 ≤ o && o < 0xC000000 then specTr (o - 0xB000000)
  else none

/-- The reset value of a register word (R16). -/
def csrReset (o : Nat) : Word64 :=
  match regSpec o with
  | some s => BitVec.ofNat 64 s.reset
  | none => 0

/-- R2, R3: does the RW part of a written word hold only defined encodings? `w` is the whole new word. -/
def encodingOk (o w : Nat) : Bool :=
  if o = oDevPwr then 1500 ≤ bitsOf w 0 16 && bitsOf w 0 16 ≤ 3800
  else if o = oTbCfg then
    let m := bitsOf w 8 8
    1 ≤ m && m ≤ 200 && bitsOf w 4 2 != 0 && bitsOf w 0 2 != 3
  else if o = oMpShed then bitsOf w 0 8 < bitsOf w 8 8
  else if o = oMpWdt then 1 ≤ bitsOf w 0 8 && bitsOf w 0 8 ≤ 100
  else if o = oHiBar2 0 || o = oHiBar2 1 then bitsOf w 30 10 ≤ 704
  else if 0x310000 ≤ o && o < 0x3A0000 then
    -- HI_QSQ.LOG2 and HI_QCQ.LOG2
    if (o - 0x310100) % 0x20 ≤ 8 then 4 ≤ bitsOf w 8 4 && bitsOf w 8 4 ≤ 12 else true
  else if 0x401000 ≤ o && o < 0x401800 then
    match o % 0x100 with
    | 0x18 => 4 ≤ bitsOf w 60 4 && bitsOf w 60 4 ≤ 12
    | 0x38 => bitsOf w 0 2 == 1 || bitsOf w 0 2 == 2
    | _ => true
  else if 0x1000000 ≤ o && o < 0x1C00000 then
    if o % 0x100000 = 0x18 then bitsOf w 0 16 != 0 else true
  else if 0x2800000 ≤ o && o < 0x2A00000 then
    -- open ports: MODE, LLR_EN and DOWNSHIFT_EN are reserved, LANE_MASK must be 0x0F (R353)
    if o % 0x100000 = 0 then bitsOf w 8 8 == 0x0F else true
  else if o = oRtr 0x28 then
    1 ≤ bitsOf w 40 9 && bitsOf w 40 9 ≤ 256 && bitsOf w 32 8 != 0 && bitsOf w 0 16 != 0
  else if o = oErr 0x18 then 1 ≤ bitsOf w 24 3 && bitsOf w 24 3 ≤ 4 && bitsOf w 32 8 != 0
  else if 0x9000000 ≤ o && o < 0x9000200 then
    match o % 0x40 with
    | 0x00 => bitsOf w 52 4 ≤ 8
    | 0x08 =>
      let c := bitsOf w 17 7
      let p := bitsOf w 24 5
      1 ≤ c && c ≤ 64 && p ≤ 23 && bitsOf w 8 9 + c ≤ 384 && (bitsOf w 32 32 >>> p) % 2 ^ 9 == 0
    | 0x18 => bitsOf w 24 3 ≤ 6 && bitsOf w 32 21 % 0x4000 == 0 && bitsOf w 0 9 ≤ 383
    | _ => true
  else if o = oDg 0x20 then 4 ≤ bitsOf w 60 4 && bitsOf w 60 4 ≤ 12
  else if o = oDg 0x38 then 16 ≤ bitsOf w 59 5 && bitsOf w 59 5 ≤ 30
  else if 0xA001000 ≤ o && o < 0xA001400 then
    if o % 16 = 8 then bitsOf w 40 6 ≤ 40 && bitsOf w 0 40 % 2 ^ bitsOf w 40 6 == 0 else true
  else if o = oTr 0x18 then 1 ≤ bitsOf w 8 5 && bitsOf w 8 5 ≤ 16 && bitsOf w 0 2 != 3
  else if o = oTr 0x50 then 4 ≤ bitsOf w 60 4
  else if o = oTr 0x80 then bitsOf w 16 16 != 0 && 1 ≤ bitsOf w 0 13 && bitsOf w 0 13 ≤ 4096
  else if o = oTr 0xC0 then 4 ≤ bitsOf w 60 4 && bitsOf w 60 4 ≤ 12
  else true

end Sys2Proof.Machine
end

