-- ==== Sys2Proof/Machine/Site.lean ====
section
/-! DEFINITION. The state of one tile site: SRAM bank fields (R213 to R233), control core (R166 to R212), matrix
engine (R71 to R114), vector engine (R128 to R165), solver sequencer (R234 to R271) and copy engine (R355 to R363,
R383). -/
namespace Sys2Proof.Machine

/-- A byte address in tile SRAM, as the program counter holds it (R166). -/
abbrev Pc := BitVec 21

/-- Power state of a bank (R225). A waking bank remembers what it woke from. -/
inductive Pwr where
  | off
  | retain
  | on
  | wakingRetain
  | wakingOff
  deriving DecidableEq, Repr

/-- One SRAM bank (R214, R219, R225, R232). -/
structure Bank where
  owner : Nat
  guest : Nat
  lock : Bool
  pwr : Pwr
  target : Nat
  deriving DecidableEq, Repr

/-- One hardware-loop level (R177). -/
structure LoopReg where
  lc : BitVec 32
  ls : Pc
  le : Pc
  deriving DecidableEq, Repr

/-- Both levels of one bank of loop registers (R182). -/
structure LoopBank where
  l0 : LoopReg
  l1 : LoopReg
  deriving DecidableEq, Repr

/-- A branch whose delay slot runs next (R175, R198): the branch, where control goes after the slot, whether it was
taken, the link register as it was before the branch, and the FMODE shadow as it was at the branch. -/
structure DelaySlot where
  branch : Pc
  target : Pc
  taken : Bool
  link : Option (RegNo × Word64)
  shOld : BitVec 6
  shLeft : Nat
  deriving DecidableEq, Repr

/-- What the core waits on (R189 to R191). -/
inductive Wait where
  | waitc (cc : BitVec 4) (target : BitVec 32)
  | waitk (kickoff : BitVec 32)
  | fenceM
  | fenceE
  | pfence (epoch : Nat)
  | fenceA
  deriving DecidableEq, Repr

/-- The shape of a load or store (R168, R170). -/
structure MemOp where
  store : Bool
  size : Nat
  signed : Bool
  fp : Bool
  rd : RegNo
  rs1 : RegNo
  imm : BitVec 16
  deriving DecidableEq, Repr

/-- A load or store that stalls the core: on a page being moved or resolved, on the budget, or on a waking bank
(R168, R225). -/
structure MemStall where
  op : MemOp
  word : Word32
  addr : Word64
  paged : Bool
  deriving DecidableEq, Repr

/-- The control core of a tile (R166, R204, R207 to R211). -/
structure CoreSt where
  x : Tab Word64
  f : Tab Word64
  pc : Pc
  fmode : BitVec 6
  shOld : BitVec 6
  shLeft : Nat
  fflags : BitVec 6
  step : BitVec 48
  fprc : BitVec 40
  jobLoop : LoopBank
  superLoop : LoopBank
  cc : Tab (BitVec 32)
  epend : BitVec 4
  epc : Pc
  excInfo : Word32
  excAddr : Word64
  pie : Bool
  ie : Bool
  ppriv : Bool
  priv : Bool
  evbase : Pc
  scratch : Word64
  ien : BitVec 3
  ipend : BitVec 3
  preemptSquad : Nat
  dslot : Option DelaySlot
  wait : Option Wait
  issue : Option Word32
  mstall : Option MemStall
  stopped : Bool
  stopReq : Bool
  fresh : Bool
  double : Bool
  dds : Bool
  late : Bool
  lastCause : BitVec 8
  deriving DecidableEq, Repr

/-- One instruction in an engine queue, with what it captured at issue (R186, R187, R66). -/
structure QEntry where
  word : Word32
  a : Word64
  b : Word64
  sr : Bool
  sren : Bool
  priv : Bool
  key : Word64
  deriving DecidableEq, Repr

/-- The queue of an engine and what every engine keeps of its instructions: the descriptors of the head as read when it
reached the head (R73, R143, R357); whether the head has launched, the status it ended with, halting, and the error record
(R105, R156, R262, R383). -/
structure Eng where
  q : List QEntry
  cap : Option (List Nat)
  launched : Bool
  done : Option Nat
  halted : Bool
  last : Nat
  flags : BitVec 8
  err : Word64
  deriving DecidableEq, Repr

/-- An open accumulation group (R91, R95, R102): its class, whether it is dual, and the output descriptor it captured. -/
structure Group where
  cls : Nat
  dual : Bool
  desc : Nat
  deriving DecidableEq, Repr

/-- A shadow drain in progress (R99): the group it closed, the half it drains, and the CLOSE that started it. -/
structure Drain where
  g : Nat
  half : Nat
  grp : Group
  entry : QEntry
  deriving DecidableEq, Repr

/-- The matrix engine (R71 to R114). `groups` is keyed by group number, `phase` and `err` by R111 and R113. -/
structure MxSt where
  eng : Eng
  accmode : Bool
  groups : Tab (Option Group)
  phase : Tab Bool
  drains : List Drain
  acc : Mem
  passes : Word64
  stalls : Word64
  deriving DecidableEq, Repr

/-- A summary slot (R152). -/
structure Summary where
  value : Word64
  kind : Nat
  valid : Bool
  deriving DecidableEq, Repr

/-- The vector engine (R128 to R165): `v` holds the 4,096-bit registers, `k` the masks, `prog` the program store. -/
structure VxSt where
  eng : Eng
  v : Tab Nat
  k : Tab Nat
  hdr : Tab Word64
  prog : Tab Word64
  sums : Tab Summary
  uop : Nat
  strips : Word64
  stalls : Word64
  deriving DecidableEq, Repr

/-- A schedule slot (R241, R271): the image's address and header. -/
structure SvSlot where
  base : Nat
  hdr : Nat
  deriving DecidableEq, Repr

/-- The identity of a run (R246): the launching tile and its run number. -/
structure RunId where
  tile : Nat
  no : Nat
  deriving DecidableEq, Repr

/-- A launch as the sequencers of its span know it (R246, R251): the run, its descriptor, the launching tile's instruction
word, and the span's tiles in rank order. -/
structure SvLaunch where
  run : RunId
  desc : Nat
  word : Word32
  tiles : List Nat
  deriving DecidableEq, Repr

/-- An entry of the solver queue (R243, R246): an issued instruction or a forwarded launch. -/
inductive SvEntry where
  | issued (e : QEntry)
  | forwarded (l : SvLaunch)
  deriving DecidableEq, Repr

/-- A scalar of a method with its tangent (R254, R256). -/
structure Scal where
  v : Nat
  t : Nat
  deriving DecidableEq, Repr

/-- A part of a run (R246 to R251): its launch, whether it has started and whether its end has been reported, the next
position in the method's script, the next record of the section execution under way, the ordinal of that execution, the
pieces it has received, the method's scalars, the partials received for the span combines, whether a write of it lost a
collision (R224), and what the part has to report; `nfMine` says that SV_NFINFO took its event (R269). -/
structure SvPart where
  launch : SvLaunch
  launcher : Bool
  started : Bool
  closed : Bool
  pos : Nat
  recNo : Nat
  ord : Nat
  inSect : Bool
  got : Nat
  scal : Tab Scal
  partials : List (Nat × Nat × Scal)
  combine : Nat
  sent : Bool
  hit : Bool
  nonfinite : Bool
  nf : Word64
  nfMine : Bool
  late : Bool
  waiting : Bool
  ended : Option Nat
  deriving DecidableEq, Repr

/-- A done piece as the launching tile has received it (R250). -/
structure DonePiece where
  run : RunId
  tile : Nat
  status : Nat
  nonfinite : Bool
  nf : Word64
  late : Bool
  deriving DecidableEq, Repr

/-- What one solver piece carries (R249, R254): a SEND of consecutive RECV elements, or one tile's partial of a span
combine. -/
inductive PieceBody where
  | send (index : Nat) (data : List Byte) (tan : List Byte)
  | partial_ (rank : Nat) (s : Scal)
  deriving DecidableEq, Repr

/-- A solver piece in flight or held (R249). -/
structure SvPiece where
  src : Nat
  dst : Nat
  run : RunId
  ord : Nat
  body : PieceBody
  deriving DecidableEq, Repr

/-- The solver sequencer (R234 to R271). `past` is the last run whose part ended well here, with its descriptor and the
arrays that the part wrote, which are undefined if the run fails yet (R251). -/
structure SvSt where
  q : List SvEntry
  halted : Bool
  last : Nat
  flags : BitVec 8
  err : Word64
  slots : Tab (Option SvSlot)
  part : Option SvPart
  past : Option (RunId × Nat × List (Nat × Nat))
  runNo : Nat
  dones : List DonePiece
  failed : List (RunId × Nat)
  held : List SvPiece
  nfinfo : Word64
  nonfinite : Bool
  late : Bool
  resid : Word64
  runCycles : Word64
  xwait : Word64
  runs : Word64
  deriving DecidableEq, Repr

/-- A launched copy or collective (R357, R364, R378): the instruction, its descriptor as read at launch, its tag, how far
its row has gone, what it still waits for, and for a collective what the reduction knows (R386 to R392). `orphan` marks one
whose tile has been reset since, so that it is only still to leave (R382). -/
structure CpOp where
  tag : Nat
  entry : QEntry
  desc : Nat
  coll : Bool
  squad : Nat
  issued : Bool
  await_ : Nat
  got : List (Nat × Nat)
  status : Option Nat
  arrived : Nat
  selfArrived : Bool
  landed : List (Nat × Nat)
  closed : Bool
  lineup : Nat
  close : Nat
  closeTime : Nat
  carried : Bool
  whenLate : Bool
  minAt : Option Nat
  mismatch : Bool
  released : Bool
  policy : Nat
  gather : Bool
  stale : Bool
  orphan : Bool
  deriving DecidableEq, Repr

/-- The copy engine (R356 to R363, R381 to R383). -/
structure CpSt where
  eng : Eng
  ops : List CpOp
  late : Bool
  overlap : Word64
  staleRx : BitVec 32
  asumDrop : BitVec 32
  deriving DecidableEq, Repr

/-- The first uncorrectable error and the corrected count of TL_BANK_ECC (R233). -/
structure BankEcc where
  uev : Bool
  bank : Nat
  word : Nat
  ce : BitVec 32
  deriving DecidableEq, Repr

/-- One tile site (R21, R213). -/
structure Site where
  banks : Tab Bank
  named : Bool
  ecc : BankEcc
  core : CoreSt
  mx : MxSt
  vx : VxSt
  sv : SvSt
  cp : CpSt
  yielded : Bool
  deriving DecidableEq, Repr

/-- A bank as R228 leaves it: on a site that the substitution map names it is ON, elsewhere OFF (R29). -/
def Bank.initial (named : Bool) : Bank :=
  { owner := 6, guest := 0, lock := false, pwr := if named then .on else .off, target := if named then 2 else 0 }

/-- A loop level at reset (R204). -/
def LoopReg.initial : LoopReg := { lc := 0, ls := 0, le := 0 }

/-- A bank of loop registers at reset (R204). -/
def LoopBank.initial : LoopBank := { l0 := LoopReg.initial, l1 := LoopReg.initial }

/-- The control core at reset (R204, R208 to R212): stopped, at TILE_SUPER, FMODE 0x21. The registers x and f are
cleared by R212. -/
def CoreSt.initial : CoreSt where
  x := []
  f := []
  pc := 0
  fmode := 0x21
  shOld := 0x21
  shLeft := 0
  fflags := 0
  step := 0
  fprc := 0
  jobLoop := LoopBank.initial
  superLoop := LoopBank.initial
  cc := []
  epend := 0
  epc := 0
  excInfo := 0
  excAddr := 0
  pie := false
  ie := false
  ppriv := false
  priv := true
  evbase := 0
  scratch := 0
  ien := 0
  ipend := 0
  preemptSquad := 0
  dslot := none
  wait := none
  issue := none
  mstall := none
  stopped := true
  stopReq := false
  fresh := true
  double := false
  dds := false
  late := false
  lastCause := 0

/-- An engine at reset: queue empty, not halted, no error held (R103, R158, R382). -/
def Eng.initial : Eng where
  q := []
  cap := none
  launched := false
  done := none
  halted := false
  last := 0
  flags := 0
  err := 0

/-- The matrix engine at reset (R103, R108 to R114). -/
def MxSt.initial : MxSt where
  eng := Eng.initial
  accmode := false
  groups := []
  phase := []
  drains := []
  acc := []
  passes := 0
  stalls := 0

/-- The vector engine at reset (R158, R161 to R165). -/
def VxSt.initial : VxSt where
  eng := Eng.initial
  v := []
  k := []
  hdr := []
  prog := []
  sums := []
  uop := 0
  strips := 0
  stalls := 0

/-- The solver sequencer at reset (R263, R266 to R271). -/
def SvSt.initial : SvSt where
  q := []
  halted := false
  last := 0
  flags := 0
  err := 0
  slots := []
  part := none
  past := none
  runNo := 0
  dones := []
  failed := []
  held := []
  nfinfo := 0
  nonfinite := false
  late := false
  resid := 0
  runCycles := 0
  xwait := 0
  runs := 0

/-- The copy engine at reset (R382, R383). -/
def CpSt.initial : CpSt where
  eng := Eng.initial
  ops := []
  late := false
  overlap := 0
  staleRx := 0
  asumDrop := 0

/-- A site at reset; `named` says whether the substitution map names it (R29, R228, R232). -/
def Site.initial (named : Bool) : Site where
  banks := []
  named := named
  ecc := { uev := false, bank := 0, word := 0, ce := 0 }
  core := CoreSt.initial
  mx := MxSt.initial
  vx := VxSt.initial
  sv := SvSt.initial
  cp := CpSt.initial
  yielded := false

/-- A bank of a site. -/
def Site.bank (t : Site) (b : Nat) : Bank := t.banks.get (Bank.initial t.named) b

/-- A site with one bank changed. -/
def Site.setBank (t : Site) (b : Nat) (k : Bank) : Site := { t with banks := t.banks.set b k }

end Sys2Proof.Machine
end

