-- ==== Sys2Proof/Machine/Uncore.lean ====
section
/-! DEFINITION. The state of the units outside the tile sites that no register word holds: links and transport
(R320 to R355), collectives and combining (R364 to R391), pager (R280 to R298), training runtime (R393 to R408),
digests (R425 to R428), management processor (R431 to R465), host interface (R482 to R494), and the time base
(R305 to R319). -/
namespace Sys2Proof.Machine

/-- State of the time base (R319). -/
inductive TbMode where
  | init
  | tracking
  | holdover
  | free
  deriving DecidableEq, Repr

/-- What the last TIME message on a port said (R310). -/
structure Heard where
  root : Word64
  hops : Nat
  serial : Word64
  deriving DecidableEq, Repr

/-- The PTP receiver (R309): by (port, sender) the masters announced, a two-step Sync that waits for its Follow_Up with its
arrival, the last difference t2 − t1, a Delay_Req on its way with its departure, the mean path delay, and the next
sequence of a Delay_Req. -/
structure PtpSt where
  masters : List (Nat × Nat × PtpMaster)
  sync : Option (Nat × Word64)
  diff : Int
  req : Option (Nat × Word64)
  delay : Int
  next : Nat
  deriving DecidableEq, Repr

/-- The time base (R305 to R310, R319): TB_TIME, the fraction the rate correction has built up, TB_CFG, the fields of
TB_STAT, TB_OFFSET and TB_FREQ, the high halves latched for the host, the MP and the TAP, and what neighbours said. -/
structure TimeBase where
  time : Word64
  frac : Int
  cfg : BitVec 24
  hops : BitVec 6
  parent : BitVec 4
  rootConflict : Bool
  stateEvt : Bool
  offsetAlarm : Bool
  mode : TbMode
  offset : BitVec 32
  freq : BitVec 32
  latches : Tab (BitVec 32)
  heard : Tab Heard
  ptp : PtpSt
  deriving DecidableEq, Repr

/-- Fuse and strap values (R16, R24, R353, R502, R504, R508): what cold reset loads. -/
structure Fuses where
  devId : Word64
  serial : Word64
  uid : Tab Word64
  rrevSi : BitVec 16
  mac : Tab Word64
  subst : Tab Nat
  strap : BitVec 16
  dbgLand : Bool
  idcode : BitVec 32
  deriving DecidableEq, Repr

/-- A width or retrain request that an end has sent and not yet settled (R328). -/
inductive LinkReq where
  | none_
  | width
  | retrain
  deriving DecidableEq, Repr

/-- What the device sends on its ports and signal lines, in order: the observable output of the links. A link control frame
has its destination MAC address and its payload (R322). -/
inductive Sent where
  | link (port mac : Nat) (payload : List Byte)
  | delayReq (port seq : Nat)
  | horven (port : Nat) (f : Frame)
  | udp (port : Nat) (mac : Nat) (addr : Nat) (udpPort : Nat) (bytes : List Byte)
  | advert (port : Nat) (addr : Nat)
  | thermtrip
  | pldm (bytes : List Byte)
  deriving DecidableEq, Repr

/-- One Ethernet port beyond its registers (R323 to R332): whether the PCS has locked, the bad lanes, the request the end
has sent, the partner's and its own requests that are held, the width change under way, the configuration the last
training took, the link-retry state with the link sequence from which a replay has still to go on, the frames that wait, and
the MAC address learned from the partner's HELLO. -/
structure Port where
  locked : Bool
  bad : BitVec 8
  req : LinkReq
  held : List (LinkReq × BitVec 8)
  want : LinkReq
  goMask : BitVec 8
  goK : Option (BitVec 32)
  switched : Bool
  modeSw : Bool
  laneMask : BitVec 8
  llrEn : Bool
  llrNext : BitVec 16
  llrExp : BitVec 16
  nak : Bool
  again : Option (BitVec 16)
  replay : List (BitVec 16 × Frame × Nat)
  queue : List Frame
  kaDiff : Nat
  skewTick : Option Nat
  mac : BitVec 48
  deriving DecidableEq, Repr

/-- A sent DATA frame that is not yet acknowledged (R337, R341): its copy, the operations (site, tag) it carries, the
COLLID under which it is held after a NOTREADY (R376), whether it still waits for its ARESP, its timer's period, and how often it was sent again.
`frees` names the received frame (flow, sequence) that it answers and that its acknowledgement lets this device acknowledge
(R365, R376). -/
structure TxFrame where
  f : Frame
  owners : List (Nat × Nat)
  frees : Option (Nat × Nat)
  held : Option Nat
  acked : Bool
  aresp : Bool
  rto : Nat
  retx : Nat
  fast : Bool
  deriving DecidableEq, Repr

/-- A frame that the transport holds and has not sent yet (R337): it, the operations it carries, and the received frame
that it answers. -/
structure Outgoing where
  f : Frame
  owners : List (Nat × Nat)
  frees : Option (Nat × Nat)
  deriving DecidableEq, Repr

/-- Send and receive state of the flows with one device in one traffic class (R335 to R341). -/
structure Flow where
  next : Nat
  ackHeld : Nat
  unacked : List TxFrame
  waiting : List Outgoing
  inc : Option (BitVec 16)
  expect : Nat
  got : List Nat
  ackDue : Bool
  results : Tab (Nat × Nat)
  deriving DecidableEq, Repr

/-- An atomic or partial on its way to the atomic unit (R368 to R373): where its result goes, and its operands. -/
structure AtomJob where
  f : Frame
  aop : Nat
  count : Nat
  pa : Nat
  waited : Bool
  deriving DecidableEq, Repr

/-- An exact-sum register (R369). -/
structure ExactSum where
  pa : Nat
  step : Nat
  sum : Int
  nanf : Bool
  pinf : Bool
  ninf : Bool
  deriving DecidableEq, Repr

/-- A combining entry (R372, R373): its opening frame, when it opened, and what joined. For an atomic, `sums` holds the
merged partials of `count` contributions. For a get, `count` is the bytes sent on, `pieces` what was sent on, for who joins
later, and `ue` whether an uncorrectable error was reported. -/
structure CombEntry where
  open_ : Frame
  tick : Nat
  window : Nat
  joined : List Frame
  locals : List (Nat × Nat)
  count : Nat
  sums : List ExactSum
  pieces : List (Nat × List Byte)
  ue : Bool
  deriving DecidableEq, Repr

/-- A fault record of a context (R285). -/
structure PageFault where
  page : Nat
  va : Nat
  reason : Nat
  deriving DecidableEq, Repr

/-- A page move in progress (R289): the page, where it comes from and goes, the entry it had, the stops that have not
yet acknowledged, and whether it failed. -/
structure Move where
  q : Nat
  va : Nat
  entry : Nat
  src : Nat
  dst : Nat
  toHbm : Bool
  waitAcks : List Nat
  deriving DecidableEq, Repr

/-- A directive in progress (R287 to R292). -/
structure Dir where
  slot : Nat
  rcd : Nat
  started : Bool
  todo : List Nat
  budgetWait : Bool
  status : Nat
  result : Bool
  deriving DecidableEq, Repr

/-- The pager (R280 to R298). `stalls` lists who stalls on which page of which context, `failed` those whose stall
FAULT_FAIL ended. -/
structure Pager where
  faults : Tab (List PageFault)
  extra : Tab (List PageFault)
  stalls : List (Nat × Nat × Nat)
  failed : List (Nat × Nat × Nat)
  dirs : Tab (Option Dir)
  moves : List Move
  staged : List (Nat × Nat)
  heldRegs : List Nat
  bumping : Bool
  hostUsed : List Nat
  deriving DecidableEq, Repr

/-- The update record at the head of the ring (R401): the job key it was issued under (R66), whether it has started and
whether its units have finished. -/
structure UpdRun where
  slot : Nat
  rcd : Nat
  key : Nat
  started : Bool
  ran : Bool
  status : Nat
  deriving DecidableEq, Repr

/-- One accumulator of a digest slot (R427). -/
structure DigAcc where
  live : Bool
  step : Nat
  sum : Nat
  count : Nat
  deriving DecidableEq, Repr

/-- A digest selection slot (R427): the current step's accumulator and the previous step's. -/
structure DigSlot where
  cur : DigAcc
  prev : DigAcc
  stale : Bool
  deriving DecidableEq, Repr

/-- The training runtime and the digest unit (R391 to R408, R423 to R428). `closedColl` holds the (COLLID, STEP) of the
closed reductions, `served` the completed gathers, which still answer other ranks, both of this generation. -/
structure TrSt where
  carry : List Nat
  lineups : List Nat
  live : Nat
  upd : Option UpdRun
  answered : List (BitVec 16 × Nat)
  closedColl : List (Nat × Nat)
  served : List (Nat × CpOp)
  dig : Tab DigSlot
  digBuf : List Nat
  digHead : Nat
  capSeq : Word64
  deriving DecidableEq, Repr

/-- A management message as it waits in the MP's queue, with the device whose frame brought it (R432, R433). -/
structure Msg where
  src : Nat
  bytes : List Byte
  deriving DecidableEq, Repr

/-- The management processor beyond its registers (R431 to R465). `suspects` holds who reported whom, and when; `retires`
the devices that said themselves that they retire; `told` whom this device has reported, and when (R449). `faulty` and
`ces` are the evidence of R441; `restoring` says that RESTORE waits for the step-state table; `agreeAsked` and `updAsked`
are MP_AGREE.START and MP_CTL.UPDATE while their tier is shed (R462). -/
structure MpSt where
  queue : List Msg
  irq : Bool
  hbTick : Nat
  suspects : List (BitVec 16 × BitVec 16 × Nat)
  heldSeq : List Msg
  agreePhase : Nat
  agreeRound : Nat
  agreeMin : Nat
  agreeMax : Nat
  agreePend : List Msg
  agreeWait : Bool
  kicks : BitVec 4
  hiRun : Nat
  loRun : Nat
  substs : List (Nat × SubstCause)
  powers : List Nat
  dutyRun : Nat
  temps : Tab Nat
  faulty : List Nat
  ces : Tab (List Nat)
  restoring : Bool
  retires : List (BitVec 16)
  told : List (BitVec 16 × Nat)
  agreeAsked : Bool
  updAsked : Bool
  deriving DecidableEq, Repr

/-- A command of a host queue that has begun and not completed (R490): its queue, OPC, CID and logical tile, whether the
tile was reset meanwhile (R501), and the STATUS and RESULT that wait to be written. -/
structure HiCmd where
  port : Nat
  fn : Nat
  k : Nat
  opc : Nat
  cid : Nat
  tile : Nat
  hit : Bool
  done : Option (Nat × Nat)
  deriving DecidableEq, Repr

/-- The host interface beyond its registers (R488 to R494): raised MSI-X vectors (port, function, vector) that no one
has taken, the completion rings (by HI_QCQ offset) that are past an odd number of wraps, the commands in progress, the
data a read last returned to each requester, and the TAP's CSR data register. -/
structure HiSt where
  msix : List (Nat × Nat × Nat)
  wrapped : List Nat
  cmds : List HiCmd
  resp : Tab (List Byte)
  tapStatus : BitVec 2
  tapData : Word64
  deriving DecidableEq, Repr

/-- Links, transport, combining and atomics (R320 to R376). `inbox` holds the DATA frames received and not yet applied,
`deferred` the (flow, sequence) pairs answered with NOTREADY, `answering` those of frames not written whose answer the issuer
has not acknowledged, `puts` the bytes of each put (origin, tag) written so far. -/
structure Fabric where
  ports : Tab Port
  flows : Tab Flow
  dead : List (BitVec 16)
  inbox : List Frame
  deferred : List (Nat × Nat)
  answering : List (Nat × Nat)
  puts : List (Nat × Nat × Nat)
  atomQ : List AtomJob
  wire : List Sent
  sums : List ExactSum
  comb : List CombEntry
  recent : List (Nat × Nat × Nat)
  tagNext : Nat
  deriving DecidableEq, Repr

/-- A mesh request that waits, with the epoch it was issued under: at its source because its logical tile is held (R27), or,
where `site` names one, at that site on a bank that is WAKING (R225). -/
structure HeldReq where
  r : MeshReq
  epoch : Nat
  site : Option Nat
  deriving DecidableEq, Repr

/-- Solver traffic in flight between sites (R246, R249 to R251). -/
structure SvFlight where
  launches : List (Nat × SvLaunch)
  pieces : List SvPiece
  dones : List (Nat × DonePiece)
  fails : List (Nat × RunId × Nat)
  deriving DecidableEq, Repr

/-- An open-port frame on its way to a squad's ingest ring (R473): the squad, the rule, when it arrived, its bytes. -/
structure RxFrame where
  squad : Nat
  rule : Nat
  time : Nat
  bytes : List Byte
  deriving DecidableEq, Repr

/-- The SQ unit beyond its registers (R472 to R479): the squads whose call-up waits for a substitution, those of them for
which CALLUP was written, when each call-up
started, the power targets that the banks of a called tile had before, the squads that are repaid in this window, the
next slot of each ingest ring, and the frames that wait for a held tile. -/
structure SqSt where
  waits : List Nat
  asked : List Nat
  starts : Tab Nat
  power : Tab (List Nat)
  carried : List Nat
  rxNext : Tab Nat
  rxWait : List RxFrame
  deriving DecidableEq, Repr

/-- The device outside its memory: tile sites, register words with those that protection registers have in effect, what
is held or in flight on the mesh, the HBM controllers, the flash repair record (R278, R445: spare lanes keyed by 8 × stack + n,
BENCH_BAD, and the retired home sites), and the other units. -/
structure Dev where
  sites : Tab Site
  csr : Tab Word64
  eff : Tab Word64
  held : List HeldReq
  flight : SvFlight
  poison : List Nat
  scrub : Tab Nat
  repairs : List (Nat × Nat)
  benchBad : Nat
  homes : List Nat
  fab : Fabric
  pg : Pager
  tr : TrSt
  mp : MpSt
  sq : SqSt
  hi : HiSt
  ticks : Nat
  deriving DecidableEq, Repr

/-- A port at reset. -/
def Port.initial : Port where
  locked := false
  bad := 0
  req := .none_
  held := []
  want := .none_
  goMask := 0
  goK := none
  switched := false
  modeSw := false
  laneMask := 0xFF
  llrEn := false
  llrNext := 0
  llrExp := 0
  nak := false
  again := none
  replay := []
  queue := []
  kaDiff := 0
  skewTick := none
  mac := 0

/-- A flow never used or reset (R335, R344). -/
def Flow.initial : Flow where
  next := 0
  ackHeld := 0
  unacked := []
  waiting := []
  inc := none
  expect := 0
  got := []
  ackDue := false
  results := []

/-- The fabric units at reset. -/
def Fabric.initial : Fabric where
  ports := []
  flows := []
  dead := []
  inbox := []
  deferred := []
  answering := []
  puts := []
  atomQ := []
  wire := []
  sums := []
  comb := []
  recent := []
  tagNext := 0

/-- The pager at reset (R500). -/
def Pager.initial : Pager where
  faults := []
  extra := []
  stalls := []
  failed := []
  dirs := []
  moves := []
  staged := []
  heldRegs := []
  bumping := false
  hostUsed := []

/-- The training runtime and digest unit at reset (R500). -/
def TrSt.initial : TrSt where
  carry := []
  lineups := []
  live := 0
  upd := none
  answered := []
  closedColl := []
  served := []
  dig := []
  digBuf := []
  digHead := 0
  capSeq := 0

/-- The management processor at reset. -/
def MpSt.initial : MpSt where
  queue := []
  irq := false
  hbTick := 0
  suspects := []
  heldSeq := []
  agreePhase := 0
  agreeRound := 0
  agreeMin := 0
  agreeMax := 0
  agreePend := []
  agreeWait := false
  kicks := 0
  hiRun := 0
  loRun := 0
  substs := []
  powers := []
  dutyRun := 0
  temps := []
  faulty := []
  ces := []
  restoring := false
  retires := []
  told := []
  agreeAsked := false
  updAsked := false

/-- The SQ unit at reset. -/
def SqSt.initial : SqSt where
  waits := []
  asked := []
  starts := []
  power := []
  carried := []
  rxNext := []
  rxWait := []

/-- The host interface at reset. -/
def HiSt.initial : HiSt where
  msix := []
  wrapped := []
  cmds := []
  resp := []
  tapStatus := 0
  tapData := 0

/-- No solver traffic in flight. -/
def SvFlight.initial : SvFlight := { launches := [], pieces := [], dones := [], fails := [] }

/-- The device outside its memory at reset. -/
def Dev.initial : Dev where
  sites := []
  csr := []
  eff := []
  held := []
  flight := SvFlight.initial
  poison := []
  scrub := []
  repairs := []
  benchBad := 0
  homes := []
  fab := Fabric.initial
  pg := Pager.initial
  tr := TrSt.initial
  mp := MpSt.initial
  sq := SqSt.initial
  hi := HiSt.initial
  ticks := 0

end Sys2Proof.Machine
end

