-- ==== Sys2Proof/Machine/State.lean ====
section
/-! DEFINITION. The state of the device, its reset, and why a step can stop. -/
namespace Sys2Proof.Machine

/-- Everything but the time base, the fuses and the queue: one byte memory over the device physical map, the boot flash,
the units, and the model's own counter of free values (log entry 3). -/
structure Body where
  mem : Mem
  flash : Mem
  dev : Dev
  free : Nat
  deriving DecidableEq, Repr

/-- The device: the commands that wait, first in, first out; the time base; the fuses and straps; and the rest. -/
structure State where
  pending : List Instr
  time : TimeBase
  fuse : Fuses
  body : Body
  deriving DecidableEq, Repr

/-- Why the machine faults. No rule of the spec stops the device as a whole, so no meaning raises it. -/
inductive Fault where
  /-- Raised by nobody; the type is closed and this is its only value. Safe. -/
  | none_
  deriving DecidableEq, Repr

/-- Why a command has no meaning. -/
inductive Refusal where
  /-- Raised by a dispatch arm whose command the model does not give a meaning yet. Safe: the step stops. -/
  | notModelled (mnemonic : String)
  deriving DecidableEq, Repr

/-- The time base at reset (R305, R319). -/
def TimeBase.initial : TimeBase where
  time := 0
  frac := 0
  cfg := 0x006430
  hops := 63
  parent := 0xF
  rootConflict := false
  stateEvt := false
  offsetAlarm := false
  mode := .init
  offset := 0
  freq := 0
  latches := []
  heard := []
  ptp := { masters := [], sync := none, diff := 0, req := none, delay := 0, next := 0 }

/-- The fuse and strap values of the modelled part: the spec gives none (log entry 7). -/
def Fuses.initial : Fuses where
  devId := 0
  serial := 0
  uid := []
  rrevSi := 0
  mac := []
  subst := []
  strap := 0
  dbgLand := false
  idcode := 0

/-- The device right after reset: every register at the value of its table, memory reading zero, no command waiting. -/
def State.reset : State where
  pending := []
  time := TimeBase.initial
  fuse := Fuses.initial
  body := { mem := [], flash := [], dev := Dev.initial, free := 0 }

end Sys2Proof.Machine
end

