-- ==== Sys2Proof/Machine/Ops.lean ====
section
/-! DEFINITION. The named operations that the meanings share: what a meaning reads of the time base and the fuses,
register words and their fields, sites and the substitution map, error records and injection, interrupts, kickoffs,
completion counters, and free values. -/
namespace Sys2Proof.Machine

/-- What a meaning that changes only the body may read beside it: the time base, the fuses, and the 8-byte words, by
physical address, at which the row's writes collide with another unit's (R224), as its command says. -/
structure Env where
  time : TimeBase
  fuse : Fuses
  clash : List Nat := []
  full : List (Nat × Nat × Bool) := []
  deriving DecidableEq, Repr

/-- The environment of a state. -/
def State.env (s : State) : Env := { time := s.time, fuse := s.fuse }

/-- TB_TIME as every unit sees it (R307). -/
def Env.now (e : Env) : Nat := e.time.time.toNat

/-- A meaning that changes only the body. -/
def bodyStep (f : Env → Body → Body) (s : State) : Host.Outcome State Fault Refusal :=
  .next { s with body := f s.env s.body }

/-- The same for a row whose writes may lose a collision (R224). -/
def clashStep (clash : List Nat) (f : Env → Body → Body) (s : State) : Host.Outcome State Fault Refusal :=
  .next { s with body := f { s.env with clash := clash } s.body }

/-- A meaning that changes the time base and the body. -/
def timeStep (f : Fuses → TimeBase → Body → TimeBase × Body) (s : State) : Host.Outcome State Fault Refusal :=
  let r := f s.fuse s.time s.body
  .next { s with time := r.1, body := r.2 }

-- Free values (log entry 3).

/-- A fresh free 64-bit value. -/
def Body.freshValue (b : Body) : Word64 × Body := (Config.freeValue b.free, { b with free := b.free + 1 })

/-- A fresh free number below `n` (0 where `n` is 0). -/
def Body.freshBelow (b : Body) (n : Nat) : Nat × Body := (Config.freeCount b.free % n, { b with free := b.free + 1 })

-- Register words.

/-- The register word at a CSR offset as stored. -/
def Body.csr (b : Body) (o : Nat) : Nat := (b.dev.csr.get (csrReset o) o).toNat

/-- A register word stored. -/
def Body.setCsr (b : Body) (o v : Nat) : Body := { b with dev.csr := b.dev.csr.set o (BitVec.ofNat 64 v) }

/-- Bits `[lo + len - 1 : lo]` of a register word. -/
def Body.field (b : Body) (o lo len : Nat) : Nat := bitsOf (b.csr o) lo len

/-- One bit of a register word. -/
def Body.flag (b : Body) (o lo : Nat) : Bool := bitOf (b.csr o) lo

/-- A number with bits `[lo + len - 1 : lo]` replaced. -/
def putBits (w lo len v : Nat) : Nat := w - bitsOf w lo len * 2 ^ lo + v % 2 ^ len * 2 ^ lo

/-- A register word with bits `[lo + len - 1 : lo]` replaced. -/
def Body.setField (b : Body) (o lo len v : Nat) : Body := b.setCsr o (putBits (b.csr o) lo len v)

/-- A field counted up, stopping at its largest value. -/
def Body.bumpSat (b : Body) (o lo len : Nat) : Body :=
  b.setField o lo len (min (b.field o lo len + 1) (2 ^ len - 1))

/-- A field counted up, wrapping. -/
def Body.bumpWrap (b : Body) (o lo len : Nat) : Body := b.setField o lo len (b.field o lo len + 1)

/-- The value of a protection register that is in effect: what the last bump applied (R293, R294). -/
def Body.eff (b : Body) (o : Nat) : Nat := (b.dev.eff.get (csrReset o) o).toNat

-- Sites and the substitution map.

/-- A site that the fuses leave as R29 and R228 say. -/
def siteDefault (s : Nat) : Site := Site.initial (decide (s < 384))

/-- A tile site. -/
def Body.site (b : Body) (s : Nat) : Site := b.dev.sites.get (siteDefault s) s

/-- A meaning at a site that exists; nothing happens at any other number. -/
def atSite (s : Nat) (b b' : Body) : Body := if s < 408 then b' else b

/-- A tile site stored. -/
def Body.setSite (b : Body) (s : Nat) (t : Site) : Body := { b with dev.sites := b.dev.sites.set s t }

/-- A tile site changed. -/
def Body.modSite (b : Body) (s : Nat) (f : Site → Site) : Body := b.setSite s (f (b.site s))

/-- The site on which a logical tile runs (R22, R24). -/
def Body.siteOf (b : Body) (n : Nat) : Nat := b.field (oSubst n) 0 9

/-- Is HOLD set for a logical tile (R24)? -/
def Body.holdOf (b : Body) (n : Nat) : Bool := b.flag (oSubst n) 31

/-- The logical tile that runs on a site; none where no entry names the site (R22, R29). -/
def Body.tileOf (b : Body) (s : Nat) : Option Nat :=
  if s < 384 then if b.siteOf s = s then some s else none
  else (List.range 384).find? fun n => b.siteOf n == s

/-- Is the bench site named by no entry (R28)? -/
def Body.benchFree (b : Body) (s : Nat) : Bool := (b.tileOf s).isNone

/-- The squad of a logical tile: SQ_TILEn as the last bump left it (R469). -/
def Body.squadOf (b : Body) (n : Nat) : Option Nat :=
  let w := b.eff (oSqTile n)
  if bitOf w 3 then some (bitsOf w 0 3) else none

/-- The squad of the tile that runs on a site. -/
def Body.squadAt (b : Body) (s : Nat) : Option Nat := (b.tileOf s).bind b.squadOf

/-- The logical tiles of a squad, in rising order. -/
def Body.squadTiles (b : Body) (q : Nat) : List Nat := (List.range 384).filter fun n => b.squadOf n == some q

/-- Does squad q exist (R468)? -/
def Body.squadValid (b : Body) (q : Nat) : Bool := b.flag (oSq q 0) 63

/-- Is squad q of DEADLINE class (R468)? -/
def Body.squadDeadline (b : Body) (q : Nat) : Bool := b.flag (oSq q 0) 62

/-- Port and function of squad q (R468). -/
def Body.squadFn (b : Body) (q : Nat) : Nat × Nat := (b.field (oSq q 0) 56 1, b.field (oSq q 0) 52 4)

-- Interrupts (R494).

/-- Raise an MSI-X vector of a function; a vector already pending stays pending once (R494). -/
def Body.raise (b : Body) (p f v : Nat) : Body :=
  if b.dev.hi.msix.contains (p, f, v) then b else { b with dev.hi.msix := b.dev.hi.msix ++ [(p, f, v)] }

/-- Raise a vector of both PFs. -/
def Body.raisePf (b : Body) (v : Nat) : Body := (b.raise 0 0 v).raise 1 0 v

/-- Raise a vector of the function to which squad q is mapped. -/
def Body.raiseSquad (b : Body) (q v : Nat) : Body :=
  if b.squadValid q then b.raise (b.squadFn q).1 (b.squadFn q).2 v else b

/-- An event bit set by hardware; its vector is raised where the bit was 0 (R14, R494). -/
def Body.setEvent (b : Body) (o bit v : Nat) : Body :=
  if b.flag o bit then b else (b.setField o bit 1 1).raisePf v

-- Error records (R434 to R439, R514).

/-- An error record before its time is known (R436). -/
structure ErrRec where
  kind : Nat
  sev : Nat
  inj : Bool := false
  det : Nat := 0
  site : Nat := 0
  unit : Nat := 0
  req : Nat := 0
  addr : Nat := 0
  info : Nat := 0
  deriving DecidableEq, Repr

/-- The four words of a record (R436). -/
def ErrRec.words (r : ErrRec) (now : Nat) : List Nat :=
  [now,
   r.kind % 256 + r.sev % 4 * 2 ^ 8 + b2n r.inj * 2 ^ 10 + r.det % 2 ^ 16 * 2 ^ 16 + r.site % 512 * 2 ^ 32 +
     r.unit % 256 * 2 ^ 48 + r.req % 256 * 2 ^ 56,
   r.addr % 2 ^ 64, r.info % 2 ^ 64]

/-- One second, in ticks. -/
def second : Nat := 1000000000

/-- What the MP knows against a site (R441): that an uncorrectable error of class 1 to 5 is recorded for it, and when its
banks had corrected errors within the last second. No more than 65 of those are kept. -/
def evidenceAt (r : ErrRec) (b : Body) : Body :=
  let c := r.det / 2 ^ 12 % 16
  if !(1 ≤ c && c ≤ 5) then b
  else if r.kind != 4 then { b with dev.mp.faulty := if b.dev.mp.faulty.contains r.site then b.dev.mp.faulty else b.dev.mp.faulty ++ [r.site] }
  else if c = 1 then
    let k := r.site * 32 + r.unit % 32
    { b with dev.mp.ces := b.dev.mp.ces.set k ((b.dev.ticks :: (b.dev.mp.ces.get [] k).filter fun t => b.dev.ticks < t + second).take 65) }
  else b

/-- ERR_COUNTc counts the detection (R435, R437). -/
def countErr (r : ErrRec) (b : Body) : Body :=
  (evidenceAt r b).bumpSat (oErr (0x100 + 8 * (r.det / 2 ^ 12 % 16))) (if r.kind = 5 || 1 ≤ r.sev then 32 else 0) 32

/-- Has the ring room for a record of this severity (R437)? -/
def errRoom (r : ErrRec) (b : Body) : Bool := b.field (oErr 0) 9 10 + (if 2 ≤ r.sev then 1 else 33) ≤ 512

/-- The four words of a record stored in the ring's slot (R436). -/
def putErr (e : Env) (r : ErrRec) (slot : Nat) (b : Body) : Body :=
  foldN 4 (fun w b => b.setCsr (oErr (0x1000 + 32 * slot + 8 * w)) ((r.words e.now).getD w 0)) b

/-- The record written at HEAD, which moves on; USED counts it (R436, R437). -/
def writeErr (e : Env) (r : ErrRec) (b : Body) : Body :=
  let used := b.field (oErr 0) 9 10
  let head := b.field (oErr 0) 0 9
  ((putErr e r head b).setField (oErr 0) 9 10 (used + 1)).setField (oErr 0) 0 9 (head + 1)

/-- Who hears of a written record: the MP from SEV 1, host privilege from SEV 2 (R437). -/
def tellErr (sev : Nat) (b : Body) : Body :=
  let b := if 1 ≤ sev then { b with dev.mp.irq := true } else b
  if 2 ≤ sev then b.raisePf 0 else b

/-- Record an error: ERR_COUNTc counts the detection; the record is written at HEAD while the ring has room for its
severity, else DROPPED advances; a written record interrupts the MP from SEV 1 and host privilege from SEV 2 (R437). -/
def recordErr (e : Env) (r : ErrRec) (b : Body) : Body :=
  let b := countErr r b
  if errRoom r b then tellErr r.sev (writeErr e r b) else b.bumpSat (oErr 0) 32 32

/-- The requester code of an agent (R436). -/
def agentReq : Agent → Nat
  | .host _ _ => 9
  | .mp => 10
  | .tap => 11

/-- Record a CSR access error (R3, R10, R514). -/
def csrError (e : Env) (ag : Agent) (o : Nat) (b : Body) : Body :=
  recordErr e { kind := 1, sev := 0, req := agentReq ag, addr := o } b

/-- Record an address error (R38, R514). -/
def addrError (e : Env) (req a : Nat) (b : Body) : Body :=
  recordErr e { kind := 2, sev := 1, req := req, addr := a } b

/-- Record an ownership error (R216, R514). -/
def ownerError (e : Env) (req site bank a : Nat) (b : Body) : Body :=
  recordErr e { kind := 3, sev := 1, site := site, unit := bank, req := req, addr := a } b

/-- Is this the PF, which has host privilege, the MP, or neither (R483)? -/
def hostOrMp : Agent → Bool
  | .host _ f => f == 0
  | .mp => true
  | .tap => false

/-- The injection that the next check of a detector at a unit meets, if one is armed and injection is enabled (R438). -/
def injected (b : Body) (det unit : Nat) : Option Nat :=
  if b.flag (oErr 0x10) 0 && b.flag (oErr 0x20) 8 && b.field (oErr 0x18) 0 16 == det && b.field (oErr 0x18) 16 8 == unit then
    some (b.field (oErr 0x18) 24 3)
  else none

/-- One injected check used up (R438). -/
def useInjection (b : Body) : Body :=
  let left := b.field (oErr 0x20) 0 8 - 1
  (b.setField (oErr 0x20) 0 8 left).setField (oErr 0x20) 8 1 (b2n (left != 0))

/-- One check of a detector at a unit: what injection makes it see, used up (R438, R439). -/
def check (det unit : Nat) (b : Body) : Option Nat × Body :=
  match injected b det unit with
  | some m => (some m, useInjection b)
  | none => (none, b)

/-- Detector identity (R434). -/
def detOf (cls inst : Nat) : Nat := cls * 2 ^ 12 + inst

-- Kickoffs (R312).

/-- `d = serial_diff(K, now, 32)`. -/
def kickDiff (now k : Nat) : Int := serialDiff k now 32

/-- Is the kickoff due (R312)? -/
def kickDue (now k : Nat) : Bool := kickDiff now k ≤ 0

/-- Is it late: due more than 1 ms ago (R312)? -/
def kickLate (now k : Nat) : Bool := kickDiff now k < -1000000

/-- TB_LATE_COUNT advances (R312). -/
def Body.countLate (b : Body) : Body := b.bumpWrap oTbLate 0 64

/-- A launch under kickoff `k` of a unit: TB_LATE_COUNT where it is late (R312). -/
def Body.launchAt (b : Body) (e : Env) (k : Nat) : Body := if kickLate e.now k then b.countLate else b

-- Completion counters (R188).

/-- A site's completion counter advances by 1, modulo 2^32. -/
def Site.advance (t : Site) (c : Nat) : Site :=
  { t with core.cc := t.core.cc.set c (t.core.cc.get 0 c + 1) }

/-- A site's completion counter advances. -/
def Body.advanceCc (b : Body) (s c : Nat) : Body := b.modSite s fun t => t.advance c

/-- A completion counter of a logical tile advances (R22). -/
def Body.advanceTile (b : Body) (n c : Nat) : Body := b.advanceCc (b.siteOf n) c

-- Tables of options and lists.

/-- Replace the elements of a list that satisfy `p`. -/
def mapWhere {α : Type} (l : List α) (p : α → Bool) (f : α → α) : List α := l.map fun x => if p x then f x else x

/-- Apply `f` while walking a list with the body. -/
def overList {α : Type} (l : List α) (f : α → Body → Body) (b : Body) : Body := l.foldl (fun b x => f x b) b

/-- Append to what the device sends. -/
def Body.send (b : Body) (s : Sent) : Body := { b with dev.fab.wire := b.dev.fab.wire ++ [s] }

end Sys2Proof.Machine
end

