-- ==== Sys2Proof/Machine/Access.lean ====
section
/-! DEFINITION. Accesses to memory: banks, their ECC and their collisions (R214 to R227), HBM lines (R273 to R276), host
windows and the physical map (R37, R38), the way over the mesh (R32, R435), and translation (R280 to R285). -/
namespace Sys2Proof.Machine

/-- Where the SRAM window of a site begins in the device physical map (R37). -/
def siteBase (s : Nat) : Nat := 0x1000_0000_0000 + s * 0x100_0000

/-- Is a bank ON? -/
def Bank.isOn (k : Bank) : Bool := k.pwr == .on

/-- Is it WAKING (R225)? -/
def Bank.waking (k : Bank) : Bool := k.pwr == .wakingRetain || k.pwr == .wakingOff

/-- ON, or WAKING, whose accesses wait (R216, R225). -/
def Bank.powered (k : Bank) : Bool := k.isOn || k.waking

/-- The banks that a byte range touches; bank 32 and above do not exist. -/
def rangeBanks (r : Range) : List Nat :=
  if r.2 = 0 then [] else (List.range ((r.1 + r.2 - 1) / 0x10000 - r.1 / 0x10000 + 1)).map (· + r.1 / 0x10000)

/-- May an engine use a bank, as its launch checks say (R78, R149, R216)? -/
def Site.owns (t : Site) (unit k : Nat) : Bool := k < 32 && (t.bank k).owner == unit && (t.bank k).powered

/-- Every bank of the ranges may be used by the engine. -/
def Site.ownsAll (t : Site) (unit : Nat) (rs : List Range) : Bool :=
  rs.all fun r => (rangeBanks r).all (t.owns unit)

/-- May a unit that can be a guest use a bank (R214, R216)? -/
def Site.serves (t : Site) (unit k : Nat) : Bool :=
  k < 32 && ((t.bank k).owner == unit || (t.bank k).guest == unit) && (t.bank k).powered

/-- Every bank of the ranges serves the unit. -/
def Site.servesAll (t : Site) (unit : Nat) (rs : List Range) : Bool :=
  rs.all fun r => (rangeBanks r).all (t.serves unit)

/-- Does a range touch a bank that wakes, so that its accesses wait (R225)? -/
def wakingIn (t : Site) (r : Range) : Bool := (rangeBanks r).any fun k => (t.bank k).waking

/-- Does any of the ranges? -/
def Site.wakingAny (t : Site) (rs : List Range) : Bool := rs.any (wakingIn t)

/-- May a unit's write to a bank meet one of higher priority: the mesh remote port's, or for an engine or the core the copy
engine's (R214, R222)? -/
def Bank.rival (k : Bank) (unit : Nat) : Bool :=
  let r := if k.owner = unit then k.guest else if k.guest = unit then k.owner else 0
  r == 6 || (r == 5 && unit != 6)

/-- The words of a range of a site, by physical address, at which a unit's write loses a collision (R224). -/
def Env.lostWords (e : Env) (b : Body) (unit s : Nat) (r : Range) : List Nat :=
  (e.clash.map fun w => w / 8 * 8).filter fun w =>
    decide (siteBase s + r.1 < w + 8 ∧ w < siteBase s + r.1 + r.2) && ((b.site s).bank ((w - siteBase s) / 0x10000)).rival unit

/-- A unit's write of a range of its site's SRAM, `m` being the memory as it would leave it: in a word that lost a collision
the bytes stay (R224). Did one? -/
def unitWrite (e : Env) (unit s : Nat) (r : Range) (m : Mem) (b : Body) : Bool × Body :=
  let l := e.lostWords b unit s r
  (!l.isEmpty, { b with mem := l.foldl (fun m w => m.write w (b.mem.bytes w 8)) m })

/-- TL_BANK_ECC takes an uncorrectable error; only the first is kept (R233). -/
def BankEcc.take (x : BankEcc) (bank word : Nat) : BankEcc :=
  if x.uev then x else { x with uev := true, bank := bank, word := word }

/-- An uncorrectable SRAM error: TL_BANK_ECC and a tile fault naming site and bank (R227). -/
def bankUe (e : Env) (s a : Nat) (b : Body) : Body :=
  let b := b.modSite s fun t => { t with ecc := t.ecc.take (a / 0x10000) (a % 0x10000 / 8) }
  recordErr e { kind := 6, sev := 2, inj := true, det := detOf 1 s, site := s, unit := a / 0x10000,
                addr := a % 0x10000 / 8 } b

/-- A corrected SRAM error: CE_COUNT and its record (R227). -/
def bankCe (e : Env) (s a : Nat) (b : Body) : Body :=
  let b := b.modSite s fun t => { t with ecc := { t.ecc with ce := if t.ecc.ce = -1 then -1 else t.ecc.ce + 1 } }
  recordErr e { kind := 4, sev := 0, inj := true, det := detOf 1 s, site := s, unit := a / 0x10000,
                addr := a % 0x10000 / 8 } b

/-- The ECC check of one SRAM word (R227, R439): was it uncorrectable? -/
def checkWord (e : Env) (s a : Nat) (b : Body) : Bool × Body :=
  match check (detOf 1 s) (a / 0x10000) b with
  | (some 1, b) => (false, bankCe e s a b)
  | (some _, b) => (true, bankUe e s a b)
  | (none, b) => (false, b)

/-- Is an injection armed at a detector (R438)? -/
def armedAt (b : Body) (det : Nat) : Bool :=
  b.flag (oErr 0x10) 0 && b.flag (oErr 0x20) 8 && b.field (oErr 0x18) 0 16 == det

/-- The word addresses that a range touches. -/
def rangeWords (r : Range) : List Nat :=
  if r.2 = 0 then [] else (List.range ((r.1 + r.2 - 1) / 8 - r.1 / 8 + 1)).map fun i => (r.1 / 8 + i) * 8

/-- Read checks over the words of ranges: the words found uncorrectable (R227). -/
def checkRanges (e : Env) (s : Nat) (rs : List Range) (b : Body) : List Nat × Body :=
  if armedAt b (detOf 1 s) then
    (rs.flatMap rangeWords).foldl (fun (acc, b) a =>
      let (bad, b) := checkWord e s a b
      (if bad then acc ++ [a] else acc, b)) ([], b)
  else ([], b)

/-- The memory as a reader of a site's ranges sees it: an uncorrectable word reads all ones (R227). -/
def sramView (e : Env) (s : Nat) (rs : List Range) (b : Body) : Mem × Body :=
  let (bad, b) := checkRanges e s rs b
  (bad.foldl (fun m a => m.write (siteBase s + a) (List.replicate 8 0xFF#8)) b.mem, b)

/-- The 512 bits of a descriptor in a site's SRAM (R17). -/
def descAt (m : Mem) (s a : Nat) : Nat := m.num (siteBase s + a) 64

/-- The descriptors of the head of an engine, as captured when it reached the head; read and checked now where they are not
yet (R73, R143, R357; log entry 66). -/
def captureHead (e : Env) (s : Nat) (l : List Nat) (x : Eng) (b : Body) : List Nat × Body :=
  match x.cap with
  | some ds => (ds, b)
  | none =>
    let (m, b) := sramView e s (l.map fun a => (a, 64)) b
    (l.map (descAt m s), b)

-- HBM.

/-- Where R273 places a physical HBM address: stack and pseudo-channel. -/
def hbmPlace (pa : Nat) : Nat × Nat :=
  let n := pa >>> 12
  let hi := n >>> 6
  let u := hi / 12
  let h := (u % 64) ^^^ ((u >>> 6) % 64) ^^^ ((u >>> 12) % 64)
  (hi % 12, (n % 64) ^^^ h)

/-- The stack and channel of an address (R273). -/
def hbmChannel (pa : Nat) : Nat × Nat := ((hbmPlace pa).1, (hbmPlace pa).2 / 2)

/-- Bytes of HBM (R37). -/
def hbmTop : Nat := 0xC0_0000_0000

/-- Is a stack in state LOST (R279)? -/
def stackLost (b : Body) (k : Nat) : Bool := b.field (oHm k 0) 8 2 == 2

/-- A corrected HBM error (R275). -/
def hbmCe (e : Env) (pa : Nat) (b : Body) : Body :=
  let (k, c) := hbmChannel pa
  recordErr e { kind := 4, sev := 0, inj := true, det := detOf 7 k, unit := c, addr := pa } (b.bumpSat (oHm k 8) 0 32)

/-- An uncorrectable HBM error: HM_ECC, HM_ECC_ADDR for the first, the record, and the poison (R275). -/
def hbmUe (e : Env) (pa : Nat) (b : Body) : Body :=
  let (k, c) := hbmChannel pa
  let line := pa / 64 * 64
  let b := b.bumpSat (oHm k 8) 32 16
  let b := if b.flag (oHm k 8) 63 then b else (b.setField (oHm k 8) 63 1 1).setField (oHm k 16) 6 34 (pa / 64)
  let b := if b.dev.poison.contains line then b else { b with dev.poison := b.dev.poison ++ [line] }
  recordErr e { kind := 5, sev := 1, inj := true, det := detOf 7 k, unit := c, addr := pa } b

/-- The ECC check of a read of one 64-byte line: may its data be used (R275, R276)? -/
def checkLine (e : Env) (line : Nat) (b : Body) : Bool × Body :=
  let (k, c) := hbmChannel line
  if stackLost b k then (false, b)
  else match check (detOf 7 k) c b with
    | (some 1, b) => (!b.dev.poison.contains line, hbmCe e line b)
    | (some _, b) => (false, hbmUe e line b)
    | (none, b) => (!b.dev.poison.contains line, b)

/-- The 64-byte lines that a physical range touches. -/
def rangeLines (pa n : Nat) : List Nat :=
  if n = 0 then [] else (List.range ((pa + n - 1) / 64 - pa / 64 + 1)).map fun i => (pa / 64 + i) * 64

/-- Checks of the lines of a range: those that may not be used. -/
def checkLines (e : Env) (pa n : Nat) (b : Body) : List Nat × Body :=
  (rangeLines pa n).foldl (fun (acc, b) l =>
    let (ok, b) := checkLine e l b
    (if ok then acc else acc ++ [l], b)) ([], b)

/-- A read of HBM: its bytes, all ones where the line is poisoned or its stack lost, and whether all were good. -/
def hbmRead (e : Env) (pa n : Nat) (b : Body) : List Byte × Bool × Body :=
  let (bad, b) := checkLines e pa n b
  let bytes := (List.range n).map fun i => if bad.contains ((pa + i) / 64 * 64) then 0xFF#8 else b.mem.get (pa + i)
  (bytes, bad.isEmpty, b)

/-- Bytes written to HBM: none land in a lost stack; a line written whole loses its poison (R275, R276); an exact-sum
register of an element written is unbound (R370). -/
def hbmWrite (pa : Nat) (bytes : List Byte) (b : Body) : Body :=
  let m := (bytes.zipIdx).foldl (fun m (v, i) => if stackLost b (hbmPlace (pa + i)).1 then m else m.set (pa + i) v) b.mem
  let whole := fun l => pa ≤ l && l + 64 ≤ pa + bytes.length && !stackLost b (hbmPlace l).1
  { b with mem := m, dev.poison := b.dev.poison.filter (fun l => !whole l),
           dev.fab.sums := b.dev.fab.sums.filter fun x => x.pa + 4 ≤ pa || pa + bytes.length ≤ x.pa }

-- The physical map (R37).

/-- What a device physical address names. -/
inductive Region where
  | hbm
  | sram (site off : Nat)
  | csr (off : Nat)
  | host (p : Nat)
  | hole
  deriving DecidableEq, Repr

/-- The region of an address (R37). -/
def regionOf (pa : Nat) : Region :=
  if pa < hbmTop then .hbm
  else if 0x1000_0000_0000 ≤ pa && pa < 0x1000_0000_0000 + 408 * 0x100_0000 then
    let o := pa - 0x1000_0000_0000
    if o % 0x100_0000 < 0x20_0000 then .sram (o / 0x100_0000) (o % 0x100_0000) else .hole
  else if 0x2000_0000_0000 ≤ pa && pa < 0x2000_1000_0000 then .csr (pa - 0x2000_0000_0000)
  else if 0x4000_0000_0000 ≤ pa && pa < 0x6000_0000_0000 then .host 0
  else if 0x6000_0000_0000 ≤ pa && pa < 0x8000_0000_0000 then .host 1
  else .hole

/-- Is the link of a PCIe port up (R38, R493)? -/
def hostUp (b : Body) (p : Nat) : Bool := 2 ≤ b.field (oHiPort p) 0 3

/-- How an access to physical memory ends. A read that meets poison, a LOST stack or a lost packet has its bytes all ones
where they are bad; a write that a LOST stack or a lost packet ends has no bytes (R276, R435). -/
inductive Acc where
  | ok (bytes : List Byte)
  | poison (bytes : List Byte)
  | refused (site bank : Nat)
  | unmapped
  deriving DecidableEq, Repr

/-- All ones, as a failed read returns them (R10, R38, R216). -/
def ones (n : Nat) : List Byte := List.replicate n 0xFF#8

/-- A read of memory where it is served; a tile's SRAM is reached through the mesh remote port (R215, R216). CSR
space is not memory. Nothing is recorded but ECC. -/
def memRead (e : Env) (pa n : Nat) (b : Body) : Acc × Body :=
  match regionOf pa with
  | .hbm =>
    let (bytes, good, b) := hbmRead e pa n b
    (if good then .ok bytes else .poison bytes, b)
  | .sram s o =>
    if (b.site s).servesAll 6 [(o, n)] then
      let (m, b) := sramView e s [(o, n)] b
      (.ok (m.bytes pa n), b)
    else (.refused s (o / 0x10000), b)
  | .host p => if hostUp b p then (.ok (b.mem.bytes pa n), b) else (.unmapped, b)
  | _ => (.unmapped, b)

/-- Does a write touch a stack in state LOST (R276)? -/
def meetsLost (pa n : Nat) (b : Body) : Bool := (rangeLines pa n).any fun l => stackLost b (hbmPlace l).1

/-- A write of memory where it is served (R215, R216, R276). -/
def memWrite (pa : Nat) (bytes : List Byte) (b : Body) : Acc × Body :=
  match regionOf pa with
  | .hbm => (if meetsLost pa bytes.length b then .poison [] else .ok [], hbmWrite pa bytes b)
  | .sram s o =>
    if (b.site s).servesAll 6 [(o, bytes.length)] then (.ok [], { b with mem := b.mem.write pa bytes })
    else (.refused s (o / 0x10000), b)
  | .host p => if hostUp b p then (.ok [], { b with mem := b.mem.write pa bytes }) else (.unmapped, b)
  | _ => (.unmapped, b)

-- The mesh between a unit and the memory it reaches (R31, R32, R434, R435).

/-- Where a packet enters or leaves the mesh: a site's local port, a site's HBM channel port, or an I/O die. -/
inductive Stop where
  | tile (site : Nat)
  | channel (site : Nat)
  | west
  | east
  deriving DecidableEq, Repr

/-- The router at a stop; an I/O die is reached through a row (log entry 52). -/
def Stop.router (row : Nat) : Stop → Nat
  | .tile s => s
  | .channel s => s
  | .west => 24 * row
  | .east => 24 * row + 23

/-- The row of a stop, where it has one. -/
def Stop.row : Stop → Option Nat
  | .tile s | .channel s => some (s / 24)
  | .west | .east => none

/-- UNIT of the link by which a packet from a stop enters its router (R434). -/
def Stop.side : Stop → Nat
  | .tile _ => 4
  | .channel _ => 5
  | .west => 3
  | .east => 2

/-- The site whose HBM channel port serves an HBM address (R31). -/
def channelSite (pa : Nat) : Nat :=
  let (k, c) := hbmChannel pa
  let l := k % 3 * 32 + c
  l / 6 * 24 + 6 * (k / 3) + l % 6

/-- The stop that serves a physical address (R31, R37): HA is on I/O die W, HB on I/O die E. -/
def stopOf (pa : Nat) : Option Stop :=
  match regionOf pa with
  | .sram s _ => some (.tile s)
  | .hbm => some (.channel (channelSite pa))
  | .host 0 => some .west
  | .host _ => some .east
  | _ => none

/-- The links that a packet crosses from site `a` to site `d`, each by the router that receives it and the side it comes
from: along the row, then along the column (R32). -/
def meshHops (a d : Nat) : List (Nat × Nat) :=
  let r := a / 24
  let c := a % 24
  let r' := d / 24
  let c' := d % 24
  (List.range (c' - c)).map (fun i => (24 * r + c + i + 1, 3)) ++ (List.range (c - c')).map (fun i => (24 * r + c - i - 1, 2)) ++
  (List.range (r' - r)).map (fun i => (24 * (r + i + 1) + c', 0)) ++ (List.range (r - r')).map (fun i => (24 * (r - i - 1) + c', 1))

/-- The links of a packet from one stop to another. An I/O die is left through row `row` and reached through the row in
which the packet travels (R32; log entry 52). -/
def meshPath (a z : Stop) (row : Nat) : List (Nat × Nat) :=
  let s := a.router row
  if a == z then [] else (s, a.side) :: meshHops s (z.router ((a.row).getD row))

/-- SECDED of the links that a packet crosses (R434, R435): is it discarded on the way? -/
def meshCheck (e : Env) (l : List (Nat × Nat)) (b : Body) : Bool × Body :=
  l.foldl (fun (acc : Bool × Body) x =>
    if acc.1 then acc
    else match check (detOf 6 x.1) x.2 acc.2 with
      | (none, b) => (false, b)
      | (some 1, b) => (false, recordErr e { kind := 4, sev := 0, inj := true, det := detOf 6 x.1, site := x.1, unit := x.2 } b)
      | (some _, b) => (true, recordErr e { kind := 5, sev := 1, inj := true, det := detOf 6 x.1, site := x.1, unit := x.2 } b))
    (false, b)

/-- Is an injection armed at a detector of a class? -/
def armedClass (b : Body) (c : Nat) : Bool := b.flag (oErr 0x10) 0 && b.flag (oErr 0x20) 8 && b.field (oErr 0x18) 12 4 == c

/-- Is a packet between two stops discarded on its way (R435)? -/
def meshLost (e : Env) (a z : Stop) (b : Body) : Bool × Body :=
  if !armedClass b 6 then (false, b)
  else
    let (row, b) := b.freshBelow 17
    meshCheck e (meshPath a z row) b

/-- A read of memory by a unit at a stop: the request crosses the mesh, then the response (R276, R435). -/
def physRead (e : Env) (st : Stop) (pa n : Nat) (b : Body) : Acc × Body :=
  match stopOf pa with
  | none => (.unmapped, b)
  | some z =>
    match meshLost e st z b with
    | (true, b) => (.poison (ones n), b)
    | (false, b) =>
      let (x, b) := memRead e pa n b
      match meshLost e z st b with
      | (true, b) => (.poison (ones n), b)
      | (false, b) => (x, b)

/-- A write of memory by a unit at a stop (R276, R435). -/
def physWrite (e : Env) (st : Stop) (pa : Nat) (bytes : List Byte) (b : Body) : Acc × Body :=
  match stopOf pa with
  | none => (.unmapped, b)
  | some z =>
    match meshLost e st z b with
    | (true, b) => (.poison [], b)
    | (false, b) => memWrite pa bytes b

-- Translation (R280, R281).

/-- What a walk reaches. -/
inductive LeafKind where
  | hbm
  | host
  | transit
  | absent
  | noTable
  | bad
  | refused
  deriving DecidableEq, Repr

/-- The leaf of a walk: where its entry sits, the entry, and whether it maps 1 GiB. -/
structure Leaf where
  kind : LeafKind
  ea : Nat
  entry : Nat
  big : Bool
  deriving DecidableEq, Repr

/-- PA[51:12] of an entry (R281). -/
def entryAddr (w : Nat) : Nat := bitsOf w 12 40 * 4096

/-- KIND of an entry. -/
def entryKind (w : Nat) : Nat := bitsOf w 0 3

/-- W of an entry. -/
def entryW (w : Nat) : Bool := bitOf w 3

/-- RG of an entry. -/
def entryRg (w : Nat) : Bool := bitOf w 4

/-- PIN of an entry. -/
def entryPin (w : Nat) : Bool := bitOf w 5

/-- A leaf entry at a level whose pages have `size` bytes (R281). -/
def leafOf (ea w size : Nat) : Leaf :=
  let a := entryAddr w
  let k : LeafKind :=
    match entryKind w with
    | 0 => .absent
    | 1 => if a % size = 0 && a + size ≤ hbmTop then .hbm else .bad
    | 2 => if a % size = 0 && 0x4000_0000_0000 ≤ a && a < 0x8000_0000_0000 then .host else .bad
    | 3 => if a % size = 0 then .transit else .bad
    | _ => .bad
  { kind := k, ea := ea, entry := w, big := size != 0x20_0000 }

/-- A table entry that can be followed: KIND TABLE with its table in HBM (R280, R281). -/
def tableOk (w : Nat) : Bool := entryKind w == 4 && entryAddr w + 4096 ≤ hbmTop

/-- The walk of R280 in context q. -/
def walk (b : Body) (q va : Nat) : Leaf :=
  let root := b.eff (oPgCtx q 0)
  if !bitOf root 0 then { kind := .refused, ea := 0, entry := 0, big := false }
  else
    let e0 := entryAddr root + 8 * bitsOf va 39 9
    let w0 := b.mem.num e0 8
    if entryKind w0 = 0 then { kind := .noTable, ea := e0, entry := w0, big := false }
    else if !tableOk w0 then { kind := .bad, ea := e0, entry := w0, big := false }
    else
      let e1 := entryAddr w0 + 8 * bitsOf va 30 9
      let w1 := b.mem.num e1 8
      if entryKind w1 = 0 then { kind := .noTable, ea := e1, entry := w1, big := true }
      else if entryKind w1 = 4 then
        if !tableOk w1 then { kind := .bad, ea := e1, entry := w1, big := false }
        else
          let e2 := entryAddr w1 + 8 * bitsOf va 21 9
          leafOf e2 (b.mem.num e2 8) 0x20_0000
      else leafOf e1 w1 0x4000_0000

/-- How a translation ends (R284). -/
inductive Xlate where
  | phys (pa : Nat)
  | transit
  | fault (reason : Nat)
  | refused
  deriving DecidableEq, Repr

/-- The translation of an access in context q (R284). An address of more than 48 bits reaches no page and is refused. -/
def xlate (b : Body) (q va : Nat) (write : Bool) : Xlate :=
  if 2 ^ 48 ≤ va then .refused
  else
    let l := walk b q va
    let pa := entryAddr l.entry + va % (if l.big then 0x4000_0000 else 0x20_0000)
    match l.kind with
    | .refused => .refused
    | .hbm | .host => if write && !entryW l.entry then .refused else .phys pa
    | .transit => if write && !entryW l.entry then .refused else .transit
    | .absent | .noTable => .fault 1
    | .bad => .fault 2

/-- A fault posted to host privilege: one record per page, sixteen per context, the rest wait (R285). -/
def postFault (q va reason : Nat) (b : Body) : Body :=
  let p := va >>> 21
  let r : PageFault := { page := p, va := va, reason := reason }
  let l := b.dev.pg.faults.get [] q
  let x := b.dev.pg.extra.get [] q
  if l.any (·.page == p) || x.any (·.page == p) then b
  else if l.length < 16 then
    ({ b with dev.pg.faults := b.dev.pg.faults.set q (l ++ [r]) }).raiseSquad q 2
  else { b with dev.pg.extra := b.dev.pg.extra.set q (x ++ [r]) }

-- Requesters that stall outside a control core: the digest unit, the update runtime, the micro-batch runtime, the
-- lineup log, the capture unit, the MP (R444), the directive ring of context q, an inbound frame, a copy-engine operation.
def whoDigest : Nat := 1
def whoUpdate : Nat := 2
def whoBatch : Nat := 3
def whoLog : Nat := 4
def whoCapture : Nat := 5
def whoMp : Nat := 6
def whoRing (q : Nat) : Nat := 10 + q
def whoInbox : Nat := 20
def whoOp (tag : Nat) : Nat := 100 + tag

/-- A requester that an engine names stalls on a page: its fault is posted, unless FAULT_FAIL has ended its stall, which
refuses the access (R284, R285). Answers whether it was refused. -/
def stallOn (q who va : Nat) (reason : Option Nat) (b : Body) : Bool × Body :=
  let k := (who, q, va >>> 21)
  if b.dev.pg.failed.contains k then (true, { b with dev.pg.failed := b.dev.pg.failed.erase k })
  else match reason with
    | none => (false, b)
    | some c =>
      let b := if b.dev.pg.stalls.contains k then b else { b with dev.pg.stalls := b.dev.pg.stalls ++ [k] }
      (false, postFault q va c b)

/-- How a run of job virtual bytes can be reached: its physical pieces, a stall, or a refusal. -/
inductive Reach where
  | pieces (l : List Range)
  | stall (va : Nat) (reason : Option Nat)
  | refused
  deriving DecidableEq, Repr

/-- Translate a run page by page (R280, R284); the first page that stalls or is refused decides. -/
def reach (b : Body) (q : Nat) (write : Bool) : Nat → Nat → Nat → Reach
  | 0, _, n => if n = 0 then .pieces [] else .refused
  | fuel + 1, va, n =>
    if n = 0 then .pieces []
    else
      let k := min n (0x20_0000 - va % 0x20_0000)
      match xlate b q va write with
      | .phys pa =>
        match reach b q write fuel (va + k) (n - k) with
        | .pieces l => .pieces ((pa, k) :: l)
        | r => r
      | .transit => .stall va none
      | .fault c => .stall va (some c)
      | .refused => .refused

/-- Is the device retired (R279, R502)? -/
def Body.retired (b : Body) : Bool := b.flag oDevStat 7

/-- The translation of a run of `n` bytes. On a retired device no walk starts, so the access waits (R279). -/
def reachAll (b : Body) (q va n : Nat) (write : Bool) : Reach :=
  if b.retired then .stall va none else reach b q write (n / 0x20_0000 + 2) va n

/-- How a run's read or write ended: done (with or without poison), stalled, or refused. -/
inductive VaAcc where
  | ok (bytes : List Byte)
  | poison (bytes : List Byte)
  | stall
  | refused
  deriving DecidableEq, Repr

/-- REQ of a requester that translates (R436): the pager, the update units, the MP and the copy engines have codes. -/
def whoReq (who : Nat) : Nat :=
  if who = whoUpdate then 8 else if who = whoMp then 10 else if whoRing 0 ≤ who && who < whoInbox then 7
  else if whoInbox ≤ who then 5 else 0

/-- Where such a requester meets the mesh: the digest unit is on I/O die E, the pager and the MP on I/O die W; for the
training runtime and capture the spec gives no place (log entry 52). -/
def whoStop (who : Nat) : Stop := if who = whoDigest then .east else .west

/-- A read through translation for a requester: a stall posts its fault; every piece must be good (R276, R284). Bytes
behind a link that is down read all ones with an address error (R38). -/
def vaRead (e : Env) (q who va n : Nat) (b : Body) : VaAcc × Body :=
  match reachAll b q va n false with
  | .refused => (.refused, b)
  | .stall a r => let (no, b) := stallOn q who a r b; (if no then .refused else .stall, b)
  | .pieces l =>
    l.foldl (fun (acc, b) (pa, k) =>
      match acc, physRead e (whoStop who) pa k b with
      | .ok x, (.ok y, b) => (.ok (x ++ y), b)
      | .ok x, (.poison y, b) | .poison x, (.ok y, b) | .poison x, (.poison y, b) => (.poison (x ++ y), b)
      | .ok x, (.unmapped, b) | .poison x, (.unmapped, b) => (.poison (x ++ ones k), addrError e (whoReq who) pa b)
      | _, (_, b) => (.refused, b)) (VaAcc.ok [], b)

/-- A write through translation for a requester (R276, R284): done, done without effect on some bytes, stalled, refused.
What goes to a link that is down is lost with an address error (R38). -/
def vaWrite (e : Env) (q who va : Nat) (bytes : List Byte) (b : Body) : VaAcc × Body :=
  match reachAll b q va bytes.length true with
  | .refused => (.refused, b)
  | .stall a r => let (no, b) := stallOn q who a r b; (if no then .refused else .stall, b)
  | .pieces l =>
    let (_, good, b) := l.foldl (fun (rest, good, b) (pa, k) =>
      match physWrite e (whoStop who) pa (rest.take k) b with
      | (.ok _, b) => (rest.drop k, good, b)
      | (.unmapped, b) => (rest.drop k, false, addrError e (whoReq who) pa b)
      | (_, b) => (rest.drop k, false, b)) (bytes, true, b)
    (if good then .ok [] else .poison [], b)

end Sys2Proof.Machine
end

