-- ==== Sys2Proof/Machine/Regfile.lean ====
section
/-! DEFINITION. Register writes that are no more than their access codes (R10, R12, R13), who may make them, and the
last digest's dirty mark (R458, R459). -/
namespace Sys2Proof.Machine

/-- Is the register one whose write changes what the last digest covers (R458, R480)? FB_PERMq counts as in effect. -/
def covered (o : Nat) : Bool :=
  o = oMpEpoch || o = oMpRefCoord || o = oDg 0x18 || o = oTbCfg ||
  o = oRtr 0x08 || o = oRtr 0x10 || o = oRtr 0x18 || o = oRtr 0x28 ||
  o = oTr 0x00 || o = oTr 0x10 || o = oTr 0x18 || o = oTr 0x20 || o = oTr 0x28 || o = oSqArb ||
  (0x9000000 ≤ o && o < 0x9000200 && o % 0x40 < 0x20)

/-- A change of a covered value sets CFG_DIRTY (R459). -/
def markDirty (b : Body) : Body :=
  if b.flag oMpStat 9 then b else b.setField oMpStat 9 1 1

/-- A register word stored, with the dirty mark where it changes a covered value. -/
def Body.putCsr (b : Body) (o v : Nat) : Body :=
  let c := b.setCsr o v
  if covered o && v % 2 ^ 64 != b.csr o then markDirty c else c

/-- What a 64-bit write leaves in a register by its access codes alone (R13). -/
def RegSpec.apply (r : RegSpec) (old v : Nat) : Nat :=
  let kept := old &&& (2 ^ 64 - 1 - r.rw)
  ((kept ||| (v &&& r.rw)) &&& (2 ^ 64 - 1 - (v &&& r.w1c))) ||| (v &&& r.w1s)

/-- May the agent write a register that exists (R26, R221, R293, R318, R352, R410, R429, R440, R466, R480, R493, R502)?
The TAP is left with the HM and TL blocks but for TL_BANK_OWN; HM_SPAREn is the MP's (R300). A VF's page is read by
`vfMap`. -/
def mayWrite (ag : Agent) (o : Nat) : Bool :=
  let who := match regSpec o with | some r => r.who | none => 0
  match ag with
  | .host _ f => f == 0 && who != 2
  | .mp => who != 1
  | .tap => ((0x1000000 ≤ o && o < 0x1C00000) || (0x4000000 ≤ o && o < 0x5980000 && o % 0x10000 != 0x200)) && who == 0

/-- The squad whose SQ_CFGq names a function (R487). -/
def squadOfFn (b : Body) (p f : Nat) : Option Nat :=
  (List.range 8).find? fun q => b.squadValid q && b.squadFn q == (p, f)

/-- The CSR offset behind an offset of a VF's page (R487): none where nothing is there. -/
def vfMap (b : Body) (p f o : Nat) : Option Nat :=
  if o < 0x8000 then some (0x310000 + (9 * p + f) * 0x8000 + o)
  else match squadOfFn b p f with
    | some q =>
      if o < 0x8040 then some (0x401000 + 0x100 * q + (o - 0x8000))
      else if o < 0x8080 then some (0x9000000 + 0x40 * q + (o - 0x8040))
      else none
    | none => none

/-- Which bits of a register a VF may write (R487): all of its own HI region, and of its squad's registers
PG_FAULT_RESP, PG_DIR_KICK, the W1C fields of PG_CTX_STAT and SQ_STATq, and SQ_CTLq.CALLUP. -/
def vfMask (o : Nat) : Nat :=
  if 0x310000 ≤ o && o < 0x3A0000 then 2 ^ 64 - 1
  else if 0x401000 ≤ o && o < 0x401800 then
    match o % 0x100 with | 0x38 => 3 | 0x20 => 1 | 0x28 => 0x20 | _ => 0
  else if 0x9000000 ≤ o && o < 0x9000200 then
    match o % 0x40 with | 0x28 => 0xE0 | 0x30 => 1 | _ => 0
  else 0

/-- Does the agent command squad q: host privilege, the MP, or the function of squad q (R487)? -/
def mayCommand (b : Body) (ag : Agent) (q : Nat) : Bool :=
  match ag with
  | .host p f => f == 0 || (b.squadValid q && b.squadFn q == (p, f))
  | .mp => true
  | .tap => false

/-- The W1S bits of a register whose action is under way: they read 1, and writing 1 to them asks nothing more (R15). -/
def w1sBusy (b : Body) (o : Nat) : Nat :=
  if o = oPgCtl then b2n b.dev.pg.bumping
  else if 0x2000000 ≤ o && o < 0x2A00000 && o % 0x100000 == 8 then
    (match (b.dev.fab.ports.get Port.initial ((o - 0x2000000) / 0x100000)).want with
      | .none_ => 0
      | .retrain => 1
      | .width => 2)
  else if 0x9000000 ≤ o && o < 0x9000200 && o % 0x40 == 0x30 then b2n (b.dev.sq.asked.contains ((o - 0x9000000) / 0x40))
  else if o = oMpCtl then b2n b.dev.mp.updAsked * 2
  else if o = oMpAgree then b2n b.dev.mp.agreeAsked * 4
  else if 0x4000000 ≤ o && o < 0x5980000 && o % 0x10000 == 0x100 then
    b2n (b.site ((o - 0x4000000) / 0x10000)).core.stopReq * 2
  else 0

/-- A meaning that its agent must be allowed to cause; otherwise the write is ignored and records a CSR access error. -/
def guarded (e : Env) (ag : Agent) (o : Nat) (b b' : Body) : Body := if mayWrite ag o then b' else csrError e ag o b

/-- A plain 64-bit write: refused whole where a field would hold a reserved encoding (R3), else its access codes. -/
def plainWrite (e : Env) (ag : Agent) (o v : Nat) (b : Body) : Body :=
  match regSpec o with
  | none => addrError e (agentReq ag) o b
  | some r =>
    let w := r.apply (b.csr o) v
    if encodingOk o w then b.putCsr o w else csrError e ag o b

/-- Does the written word keep every field that a rule freezes: the ring fields of an enabled queue pair (R489), the
capture registers while they are in use (R430)? -/
def unfrozen (b : Body) (o v : Nat) : Bool :=
  if 0x310000 ≤ o && o < 0x3A0000 then
    let k := (o - 0x310100) % 0x20
    if k = 0 || k = 8 then !(b.flag (o - k) 0 && bitsOf (b.csr o) 8 37 != bitsOf v 8 37) else true
  else if o = oDg 0x40 then b.flag (oDg 8) 1
  else if o = oDg 0x48 then !b.flag (oDg 8) 1
  else if o = oDg 0x38 then b.csr (oDg 0x40) == b.csr (oDg 0x48)
  else if o = oDg 0x08 then b.csr (oDg 0x40) == b.csr (oDg 0x48) || bitOf v 1 == b.flag (oDg 8) 1
  else true

/-- A write of a register that no row of its own serves, by an agent that may make it. -/
def plainStore (e : Env) (ag : Agent) (o v : Nat) (b : Body) : Body :=
  if !mayWrite ag o then csrError e ag o b
  else if !unfrozen b o v then csrError e ag o b
  else plainWrite e ag o v b

end Sys2Proof.Machine
end

