-- ==== Sys2Proof/Machine/CoreOps.lean ====
section
/-! DEFINITION. What every control-core row shares (R166 to R212): registers, loop levels, the FMODE shadow, the delay
slot, taking an exception and returning from one, retiring an instruction, memory operands, and halting an engine. -/
namespace Sys2Proof.Machine

-- Registers (R166).

/-- A scalar register; x0 reads as zero. -/
def CoreSt.getX (c : CoreSt) (r : RegNo) : Word64 := if r = 0 then 0 else c.x.get 0 r.toNat

/-- A scalar register written; writes of x0 are discarded. -/
def CoreSt.setX (c : CoreSt) (r : RegNo) (v : Word64) : CoreSt := if r = 0 then c else { c with x := c.x.set r.toNat v }

/-- An FP register. -/
def CoreSt.getF (c : CoreSt) (r : RegNo) : Word64 := c.f.get 0 r.toNat

/-- An FP register written. -/
def CoreSt.setF (c : CoreSt) (r : RegNo) (v : Word64) : CoreSt := { c with f := c.f.set r.toNat v }

-- Hardware loops (R177 to R182).

/-- The loop registers of the current privilege level (R182). -/
def CoreSt.loops (c : CoreSt) : LoopBank := if c.priv then c.superLoop else c.jobLoop

/-- They are stored. -/
def CoreSt.setLoops (c : CoreSt) (l : LoopBank) : CoreSt :=
  if c.priv then { c with superLoop := l } else { c with jobLoop := l }

/-- A level is active while its LC is not zero (R177). -/
def LoopReg.active (l : LoopReg) : Bool := l.lc != 0

/-- Is the address the last instruction of an active level (R178, R181)? -/
def LoopBank.atEnd (l : LoopBank) (pc : Pc) : Bool :=
  (l.l0.active && l.l0.le == pc) || (l.l1.active && l.l1.le == pc)

/-- A level whose LC is cleared. -/
def LoopReg.off (l : LoopReg) : LoopReg := { l with lc := 0 }

/-- Does a target lie in the body of a level? -/
def LoopReg.holds (l : LoopReg) (pc : Pc) : Bool := l.ls.toNat ≤ pc.toNat && pc.toNat ≤ l.le.toNat

/-- The levels that a taken branch leaves become inactive; leaving level 0 leaves level 1 too (R180). -/
def LoopBank.leave (l : LoopBank) (pc : Pc) : LoopBank :=
  let out0 := l.l0.active && !l.l0.holds pc
  let out1 := l.l1.active && !l.l1.holds pc
  { l0 := if out0 then l.l0.off else l.l0, l1 := if out0 || out1 then l.l1.off else l.l1 }

/-- The loop decisions after the instruction at `pc` (R178, R179): the loop registers and the next PC. -/
def LoopBank.decide (l : LoopBank) (pc : Pc) : LoopBank × Pc :=
  let d0 := fun (l : LoopBank) =>
    if l.l0.active && l.l0.le == pc then
      let n := { l with l0 := { l.l0 with lc := l.l0.lc - 1 } }
      (n, if n.l0.active then l.l0.ls else pc + 4)
    else (l, pc + 4)
  if l.l1.active && l.l1.le == pc then
    let n := { l with l1 := { l.l1 with lc := l.l1.lc - 1 } }
    if n.l1.active then (n, l.l1.ls) else d0 n
  else d0 l

-- FMODE and its shadow (R183 to R186).

/-- The FMODE value that the next instruction uses. -/
def CoreSt.fmodeUsed (c : CoreSt) : BitVec 6 := if c.shLeft = 0 then c.fmode else c.shOld

/-- Shadow position of the next instruction (R199). -/
def shadowPos (left : Nat) : Nat := match left with | 0 => 0 | 1 => 2 | _ => 1

/-- FMODE.DFMT. -/
def fmodeDfmt (m : BitVec 6) : Nat := bitsOf m.toNat 0 4

/-- The resolved rounding selection of an instruction: SR or RNE (R186). -/
def resolveSr (m : BitVec 6) (rdef rsel : Bool) : Bool := (if rdef then bitOf m.toNat 4 else rsel) && bitOf m.toNat 5

-- How an instruction ends.

/-- What executing an instruction comes to, before it retires. -/
inductive CoreRes where
  | done (b : Body)
  | doneAt (b : Body) (next : Pc)
  | branch (b : Body) (d : DelaySlot)
  | hold (b : Body)
  | exc (cause addr : Nat) (b : Body)
  | raw (b : Body)

/-- Does the core run: not stopped, not waiting, not stalled? -/
def CoreSt.running (c : CoreSt) : Bool := !c.stopped && c.wait.isNone && c.issue.isNone && c.mstall.isNone

/-- An enabled pending interrupt, lowest cause first: its cause and IPEND bit (R195, R201). -/
def CoreSt.interrupt (c : CoreSt) : Option (Nat × Nat) :=
  if !c.ie then none
  else
    let p := (c.ipend &&& c.ien).toNat
    if bitOf p 0 then some (0x10, 0) else if bitOf p 1 then some (0x11, 1) else if bitOf p 2 then some (0x12, 2) else none

/-- EXC_INFO (R205). -/
def excWord (cause : Nat) (int ds le lvl : Bool) (pos used rst : Nat) : Word32 :=
  BitVec.ofNat 32 (cause % 256 + b2n int * 2 ^ 8 + b2n ds * 2 ^ 9 + b2n le * 2 ^ 10 + b2n lvl * 2 ^ 11 + pos * 2 ^ 12 +
    used * 2 ^ 16 + rst * 2 ^ 24)

/-- The core as a fault leaves it at its restart address: in a delay slot the branch is undone (R198). -/
def CoreSt.rewind (c : CoreSt) : CoreSt :=
  match c.dslot with
  | some d =>
    let c := match d.link with | some (r, v) => c.setX r v | none => c
    { c with pc := d.branch, shOld := d.shOld, shLeft := d.shLeft, dslot := none }
  | none => c

/-- Exception entry (R196): what is saved, then the handler. `le` says whether R200 applies. -/
def CoreSt.enter (c : CoreSt) (cause addr : Nat) (int le : Bool) : CoreSt :=
  let used := c.fmodeUsed
  let ds := c.dslot.isSome
  let r := c.rewind
  let lvl := le && c.loops.l1.active && c.loops.l1.le == c.pc
  { r with
    epc := r.pc
    excInfo := excWord cause int ds (le && !ds) lvl (shadowPos r.shLeft) used.toNat r.fmodeUsed.toNat
    excAddr := BitVec.ofNat 64 addr
    ppriv := r.priv, pie := r.ie, priv := true, ie := false
    shLeft := 0, pc := r.evbase, wait := none, issue := none, mstall := none
    lastCause := BitVec.ofNat 8 cause
    stopped := r.stopReq, stopReq := false }

/-- A synchronous exception at a site: entry, or the stop of R203 where TILE_SUPER runs with IE = 0. -/
def takeExc (e : Env) (s cause addr : Nat) (b : Body) : Body :=
  let t := b.site s
  let c := t.core
  if c.priv && !c.ie then
    let r := c.rewind
    let c' := { r with stopped := true, double := true, dds := c.dslot.isSome, lastCause := BitVec.ofNat 8 cause,
                       wait := none, issue := none, mstall := none, stopReq := false }
    recordErr e { kind := 6, sev := 2, site := s, addr := c.pc.toNat } (b.setSite s { t with core := c' })
  else b.setSite s { t with core := c.enter cause addr false (c.loops.atEnd c.pc) }

/-- An interrupt at a boundary (R201): R200 applies only where the instruction at LE waits. -/
def CoreSt.takeInterrupt (c : CoreSt) (cause addr : Nat) : CoreSt :=
  c.enter cause addr true (!(c.wait.isNone && c.issue.isNone && c.mstall.isNone) && c.loops.atEnd c.pc)

/-- Return from exception (R202, R199). -/
def CoreSt.eret (c : CoreSt) : CoreSt :=
  let s := bitsOf c.excInfo.toNat 12 2
  { c with
    priv := c.ppriv, ie := c.pie, pc := c.epc
    shOld := if s = 0 then c.shOld else BitVec.ofNat 6 (bitsOf c.excInfo.toNat 24 6)
    shLeft := if s = 0 then 0 else 3 - s }

/-- One instruction has left the shadow behind it. -/
def CoreSt.shadowStep (c : CoreSt) : CoreSt := { c with shLeft := c.shLeft - 1 }

/-- At a boundary a requested stop takes effect (R201, R208). -/
def CoreSt.boundary (c : CoreSt) : CoreSt :=
  if c.stopReq then { c with stopped := true, stopReq := false } else c

/-- An instruction that is no branch completes: a delay slot hands over to its branch (R175, R180), any other instruction
takes its loop decisions (R178). -/
def CoreSt.retire (c : CoreSt) : CoreSt :=
  let c := c.shadowStep
  match c.dslot with
  | some d =>
    if d.taken then ({ (c.setLoops (c.loops.leave d.target)) with pc := d.target, dslot := none }).boundary
    else ({ c with pc := d.branch + 8, dslot := none }).boundary
  | none =>
    let (l, n) := c.loops.decide c.pc
    ({ (c.setLoops l) with pc := n }).boundary

/-- The result of an instruction made into the next state of the site's core. -/
def finish (e : Env) (s : Nat) (r : CoreRes) : Body :=
  match r with
  | .done b => b.modSite s fun t => { t with core := t.core.retire }
  | .doneAt b n => b.modSite s fun t => { t with core := ({ t.core.shadowStep with pc := n }).boundary }
  | .branch b d => b.modSite s fun t => { t with core := { t.core.shadowStep with pc := d.branch + 4, dslot := some d } }
  | .hold b | .raw b => b
  | .exc c a b => takeExc e s c a b

/-- What kind of place an instruction may not stand in: a delay slot (R176), the end of a loop body (R181). -/
structure Place where
  slot : Bool := true
  last : Bool := true

/-- Execute an instruction at a site: nothing happens while the core does not run or an interrupt is due first (R201);
the bank of the fetch is checked (R167); ILLEGAL in a delay slot (R176), then the instruction's own ILLEGAL and PRIV, then
LOOP_FORM (R181), then the instruction. A fetch that met an uncorrectable word raises MEM_UE unless a cause of a lower
priority number applies to the instruction (R195). -/
def coreGo (e : Env) (s word : Nat) (p : Place) (pre : CoreSt → Option Nat) (f : Body → CoreRes) (b : Body) : Body :=
  let c := (b.site s).core
  if 408 ≤ s || !c.running || (c.dslot.isNone && c.interrupt.isSome) then b
  else
    let k := (b.site s).bank (c.pc.toNat / 0x10000)
    if k.owner != 1 || !k.powered then takeExc e s 0x01 c.pc.toNat b
    else if !k.isOn then b
    else
      let (ue, b) := checkWord e s (c.pc.toNat / 8 * 8) b
      if !p.slot && c.dslot.isSome then takeExc e s 0x02 word b
      else match pre c with
        | some cause => takeExc e s cause word b
        | none =>
          if c.loops.atEnd c.pc && (!p.last || c.dslot.isSome) then takeExc e s 0x04 word b
          else if ue then
            match f b with
            | .exc cause addr _ => if cause ≤ 0x07 then takeExc e s cause addr b else takeExc e s 0x08 c.pc.toNat b
            | _ => takeExc e s 0x08 c.pc.toNat b
          else finish e s (f b)

/-- An instruction that changes only the core of its site. -/
def coreDo (e : Env) (s word : Nat) (pre : CoreSt → Option Nat) (f : CoreSt → CoreSt) (b : Body) : Body :=
  coreGo e s word {} pre (fun b => .done (b.modSite s fun t => { t with core := f t.core })) b

/-- ILLEGAL under a condition. -/
def illegalIf (c : Bool) : Option Nat := if c then some 0x02 else none

-- Instruction words (R169), for EXC_ADDR.

/-- Form R. -/
def wordR (major : Nat) (rd rs1 rs2 : RegNo) (func : Nat) : Nat :=
  major * 2 ^ 26 + rd.toNat * 2 ^ 21 + rs1.toNat * 2 ^ 16 + rs2.toNat * 2 ^ 11 + func

/-- Form I. -/
def wordI (major : Nat) (rd rs1 : RegNo) (imm : BitVec 16) : Nat :=
  major * 2 ^ 26 + rd.toNat * 2 ^ 21 + rs1.toNat * 2 ^ 16 + imm.toNat

/-- Form J. -/
def wordJ (major : Nat) (off : BitVec 26) : Nat := major * 2 ^ 26 + off.toNat

-- Memory operands (R168).

/-- The value of a load as it goes to its register. -/
def MemOp.extend (m : MemOp) (v : Nat) : Word64 :=
  if m.signed then BitVec.ofInt 64 (sInt (8 * m.size) v) else BitVec.ofNat 64 v

/-- The bytes of a store. -/
def MemOp.bytes (m : MemOp) (c : CoreSt) : List Byte :=
  leBytes (if m.fp then c.getF m.rd else c.getX m.rd).toNat m.size

/-- The address of a memory operand. -/
def MemOp.addr (m : MemOp) (c : CoreSt) : Word64 := c.getX m.rs1 + m.imm.signExtend 64

/-- The register that a load writes. -/
def MemOp.load (m : MemOp) (v : Nat) (c : CoreSt) : CoreSt :=
  if m.fp then c.setF m.rd (m.extend v) else c.setX m.rd (m.extend v)

/-- A stall recorded in the core; the instruction starts again when the stall ends (R201). -/
def stallMem (s : Nat) (m : MemOp) (word : Nat) (a : Word64) (paged : Bool) (b : Body) : Body :=
  b.modSite s fun t => { t with core := { t.core with mstall := some { op := m, word := BitVec.ofNat 32 word, addr := a, paged := paged } } }

/-- The squad whose call-up counts a store by this site to an SRAM address as a yield: the tile lies in the range of a
call-up that is PREEMPTING or CALLED, and the store touches the yield word (R476, R477). -/
def yieldSquad (b : Body) (s a n : Nat) : Option Nat :=
  match b.tileOf s with
  | none => none
  | some tile => (List.range 8).find? fun q =>
      let st := b.field (oSq q 0x28) 0 2
      let base := b.field (oSq q 8) 8 9
      let y := b.field (oSq q 0x10) 0 18 * 8
      (st == 1 || st == 2) && base ≤ tile && tile < base + b.field (oSq q 8) 17 7 && a < y + 8 && y < a + n

/-- A store to the yield word stops the core once the store has completed (R476). -/
def yieldStore (s a n : Nat) (b : Body) : Body :=
  match yieldSquad b s a n with
  | some _ => b.modSite s fun t => { t with yielded := true, core := { t.core with stopReq := true } }
  | none => b

/-- A load or store of the core (R168): alignment, then the bank or the page, then the data. A store that loses a collision
loses its bytes and nothing else: chapter 6 gives it no status (R224). -/
def memOperand (e : Env) (s word : Nat) (m : MemOp) (b : Body) : CoreRes :=
  let c := (b.site s).core
  let a := (m.addr c).toNat
  if a % m.size != 0 then .exc 0x05 a b
  else if a < 0x20_0000 then
    let k := (b.site s).bank (a / 0x10000)
    if k.owner != 1 || !k.powered then .exc 0x06 a b
    else if !k.isOn then .hold (stallMem s m word (m.addr c) false b)
    else if m.store then
      .done (yieldStore s a m.size (unitWrite e 1 s (a, m.size) (b.mem.write (siteBase s + a) (m.bytes c)) b).2)
    else
      let (ue, b) := checkWord e s (a / 8 * 8) b
      if ue then .exc 0x08 a b
      else .done (b.modSite s fun t => { t with core := m.load (b.mem.num (siteBase s + a) m.size) t.core })
  else if 2 ^ 48 ≤ a then .exc 0x07 a b
  else match b.squadAt s with
    | none => .exc 0x07 a b
    | some q =>
      match xlate b q a m.store with
      | .refused => .exc 0x07 a b
      | .transit => .hold (stallMem s m word (m.addr c) true b)
      | .fault r => .hold (stallMem s m word (m.addr c) true (postFault q a r b))
      | .phys pa =>
        if b.retired then .hold (stallMem s m word (m.addr c) true b)
        else if m.store then
          match physWrite e (.tile s) pa (m.bytes c) b with
          | (.unmapped, b) => .done (addrError e 1 pa b)
          | (_, b) => .done b
        else match physRead e (.tile s) pa m.size b with
          | (.ok v, b) => .done (b.modSite s fun t => { t with core := m.load (ofBytes v) t.core })
          | (.unmapped, b) =>
            .done ((addrError e 1 pa b).modSite s fun t => { t with core := m.load (2 ^ (8 * m.size) - 1) t.core })
          | (_, b) => .exc 0x08 a b

/-- A stalled load or store is tried again (R168, R285, R295): the instruction starts anew. -/
def retryMem (e : Env) (s : Nat) (b : Body) : Body :=
  match (b.site s).core.mstall with
  | none => b
  | some ms =>
    let b := b.modSite s fun t => { t with core := { t.core with mstall := none } }
    finish e s (memOperand e s ms.word.toNat ms.op b)

/-- Every core that stalls on a page is tried again. -/
def retryPaged (e : Env) (b : Body) : Body :=
  overList (List.range 408) (fun s b =>
    match (b.site s).core.mstall with
    | some ms => if ms.paged then retryMem e s b else b
    | none => b) b

-- Engines (R187, R193).

/-- Every engine queue of the site is empty and every engine instruction complete (R191). -/
def Site.enginesIdle (t : Site) : Bool :=
  t.mx.eng.q.isEmpty && t.mx.drains.isEmpty && t.vx.eng.q.isEmpty && t.sv.q.isEmpty && t.sv.part.isNone &&
    t.cp.eng.q.isEmpty && t.cp.ops.isEmpty

/-- Does no access that the tile issued under an epoch older than `ep` remain (R296)? -/
def oldEpochDone (b : Body) (s ep : Nat) : Bool :=
  !b.dev.held.any fun h => h.r.src == s && decide (serialDiff h.epoch ep 32 < 0)

/-- The current protection epoch (R294). -/
def Body.epoch (b : Body) : Nat := b.csr oPgEpoch % 2 ^ 32

/-- An engine halts: its EPEND bit is set, and a core at JOB that waits in WAITC or a fence takes ENGINE_ERR (R193). -/
def haltEngine (e : Env) (s bit : Nat) (b : Body) : Body :=
  let b := b.modSite s fun t => { t with core := { t.core with epend := t.core.epend ||| BitVec.ofNat 4 (2 ^ bit) } }
  let c := (b.site s).core
  match c.wait with
  | some (.waitk _) | none => b
  | some _ => if c.priv || c.stopped then b else takeExc e s 0x0A c.epend.toNat b

/-- The queue entry of an engine instruction: what it captures at issue (R186, R187, R66). -/
def captureEntry (b : Body) (s : Nat) (w : Word32) : QEntry :=
  let c := (b.site s).core
  let n := w.toNat
  let major := bitsOf n 26 6
  let reg := fun lo => c.getX (BitVec.ofNat 5 (bitsOf n lo 5))
  let old := major == 0x29 || major == 0x2A
  let m := c.fmodeUsed
  let sr := if major == 0x2C then resolveSr m (bitOf n 3) (bitOf n 2) else resolveSr m (bitOf n 4) (bitOf n 3)
  { word := w, a := reg (if old then 14 else 17), b := reg (if old then 9 else 12), sr := sr, sren := bitOf m.toNat 5,
    priv := c.priv, key := BitVec.ofNat 64 (b.csr (oTr 0)) }

/-- Is the queue of the instruction's engine full (R73, R133, R243, R357)? -/
def Site.queueFull (t : Site) (major : Nat) : Bool :=
  match major with
  | 0x29 => 32 ≤ t.mx.eng.q.length
  | 0x2A => 16 ≤ t.vx.eng.q.length
  | 0x2B => 8 ≤ t.sv.q.length
  | _ => 32 ≤ t.cp.eng.q.length

/-- An entry at the back of its engine's queue. -/
def Site.enqueue (t : Site) (major : Nat) (q : QEntry) : Site :=
  match major with
  | 0x29 => { t with mx.eng.q := t.mx.eng.q ++ [q] }
  | 0x2A => { t with vx.eng.q := t.vx.eng.q ++ [q] }
  | 0x2B => { t with sv.q := t.sv.q ++ [.issued q] }
  | _ => { t with cp.eng.q := t.cp.eng.q ++ [q] }

/-- Issue an engine instruction, or stall while its queue is full (R187). -/
def issueWord (s : Nat) (w : Word32) (b : Body) : CoreRes :=
  let major := bitsOf w.toNat 26 6
  if (b.site s).queueFull major then
    .hold (b.modSite s fun t => { t with core := { t.core with issue := some w } })
  else .done (b.modSite s fun t => t.enqueue major (captureEntry b s w))

/-- A stalled issue is tried again once a queue has room. -/
def retryIssue (e : Env) (s : Nat) (b : Body) : Body :=
  match (b.site s).core.issue with
  | none => b
  | some w =>
    if (b.site s).core.stopped then b
    else finish e s (issueWord s w (b.modSite s fun t => { t with core := { t.core with issue := none } }))

end Sys2Proof.Machine
end

