-- ==== Sys2Proof/Machine/Alu.lean ====
section
/-! DEFINITION. The ALU rows of the control core: OPR (R171) and the immediate forms (R170). -/
namespace Sys2Proof.Machine

/-- Signed quotient: truncated toward zero, 0 for a zero divisor, saturating on overflow (R171). -/
def aluDiv (a b : Word64) : Word64 :=
  if b = 0 then 0
  else if a = BitVec.intMin 64 && b = -1 then BitVec.intMax 64
  else BitVec.ofInt 64 (a.toInt.tdiv b.toInt)

/-- Signed remainder: the sign of the dividend, the dividend for a zero divisor (R171). -/
def aluMod (a b : Word64) : Word64 := if b = 0 then a else BitVec.ofInt 64 (a.toInt.tmod b.toInt)

/-- An OPR instruction: `rd ← op rs1 rs2` (R171). -/
def opr (func : Nat) (op : Word64 → Word64 → Word64) (site : Nat) (rd rs1 rs2 : RegNo) (e : Env) (b : Body) : Body :=
  coreDo e site (wordR 0 rd rs1 rs2 func) (fun _ => none) (fun c => c.setX rd (op (c.getX rs1) (c.getX rs2))) b

/-- An immediate instruction: `rd ← op rs1` (R170). -/
def opk (major : Nat) (op : Word64 → Word64) (site : Nat) (rd rs1 : RegNo) (imm : BitVec 16) (e : Env) (b : Body) : Body :=
  coreDo e site (wordI major rd rs1 imm) (fun _ => none) (fun c => c.setX rd (op (c.getX rs1))) b

/-- The result of ADD (R171). -/
def aluAddR (a b : Word64) : Word64 := a + b

/-- ADD (R171). -/
def execAdd (site : Nat) (rd rs1 rs2 : RegNo) (s : State) : Host.Outcome State Fault Refusal :=
  bodyStep (opr 0x000 aluAddR site rd rs1 rs2) s

/-- The result of SUB (R171). -/
def aluSubR (a b : Word64) : Word64 := a - b

/-- SUB (R171). -/
def execSub (site : Nat) (rd rs1 rs2 : RegNo) (s : State) : Host.Outcome State Fault Refusal :=
  bodyStep (opr 0x001 aluSubR site rd rs1 rs2) s

/-- The result of AND (R171). -/
def aluAndR (a b : Word64) : Word64 := a &&& b

/-- AND (R171). -/
def execAnd (site : Nat) (rd rs1 rs2 : RegNo) (s : State) : Host.Outcome State Fault Refusal :=
  bodyStep (opr 0x002 aluAndR site rd rs1 rs2) s

/-- The result of OR (R171). -/
def aluOrR (a b : Word64) : Word64 := a ||| b

/-- OR (R171). -/
def execOr (site : Nat) (rd rs1 rs2 : RegNo) (s : State) : Host.Outcome State Fault Refusal :=
  bodyStep (opr 0x003 aluOrR site rd rs1 rs2) s

/-- The result of XOR (R171). -/
def aluXorR (a b : Word64) : Word64 := a ^^^ b

/-- XOR (R171). -/
def execXor (site : Nat) (rd rs1 rs2 : RegNo) (s : State) : Host.Outcome State Fault Refusal :=
  bodyStep (opr 0x004 aluXorR site rd rs1 rs2) s

/-- The result of SHL (R171). -/
def aluShlR (a b : Word64) : Word64 := a <<< (b.toNat % 64)

/-- SHL (R171). -/
def execShl (site : Nat) (rd rs1 rs2 : RegNo) (s : State) : Host.Outcome State Fault Refusal :=
  bodyStep (opr 0x005 aluShlR site rd rs1 rs2) s

/-- The result of SHR (R171). -/
def aluShrR (a b : Word64) : Word64 := a >>> (b.toNat % 64)

/-- SHR (R171). -/
def execShr (site : Nat) (rd rs1 rs2 : RegNo) (s : State) : Host.Outcome State Fault Refusal :=
  bodyStep (opr 0x006 aluShrR site rd rs1 rs2) s

/-- The result of SAR (R171). -/
def aluSarR (a b : Word64) : Word64 := a.sshiftRight (b.toNat % 64)

/-- SAR (R171). -/
def execSar (site : Nat) (rd rs1 rs2 : RegNo) (s : State) : Host.Outcome State Fault Refusal :=
  bodyStep (opr 0x007 aluSarR site rd rs1 rs2) s

/-- The result of LT (R171). -/
def aluLtR (a b : Word64) : Word64 := if a.slt b then 1 else 0

/-- LT (R171). -/
def execLt (site : Nat) (rd rs1 rs2 : RegNo) (s : State) : Host.Outcome State Fault Refusal :=
  bodyStep (opr 0x008 aluLtR site rd rs1 rs2) s

/-- The result of LTU (R171). -/
def aluLtuR (a b : Word64) : Word64 := if a.ult b then 1 else 0

/-- LTU (R171). -/
def execLtu (site : Nat) (rd rs1 rs2 : RegNo) (s : State) : Host.Outcome State Fault Refusal :=
  bodyStep (opr 0x009 aluLtuR site rd rs1 rs2) s

/-- The result of MUL (R171). -/
def aluMulR (a b : Word64) : Word64 := a * b

/-- MUL (R171). -/
def execMul (site : Nat) (rd rs1 rs2 : RegNo) (s : State) : Host.Outcome State Fault Refusal :=
  bodyStep (opr 0x00A aluMulR site rd rs1 rs2) s

/-- The result of MULHS (R171). -/
def aluMulhsR (a b : Word64) : Word64 := BitVec.ofInt 64 (a.toInt * b.toInt / 2 ^ 64)

/-- MULHS (R171). -/
def execMulhs (site : Nat) (rd rs1 rs2 : RegNo) (s : State) : Host.Outcome State Fault Refusal :=
  bodyStep (opr 0x00B aluMulhsR site rd rs1 rs2) s

/-- The result of MULHU (R171). -/
def aluMulhuR (a b : Word64) : Word64 := BitVec.ofNat 64 (a.toNat * b.toNat / 2 ^ 64)

/-- MULHU (R171). -/
def execMulhu (site : Nat) (rd rs1 rs2 : RegNo) (s : State) : Host.Outcome State Fault Refusal :=
  bodyStep (opr 0x00C aluMulhuR site rd rs1 rs2) s

/-- The result of DIV (R171). -/
def aluDivR (a b : Word64) : Word64 := aluDiv a b

/-- DIV (R171). -/
def execDiv (site : Nat) (rd rs1 rs2 : RegNo) (s : State) : Host.Outcome State Fault Refusal :=
  bodyStep (opr 0x00D aluDivR site rd rs1 rs2) s

/-- The result of DIVU (R171). -/
def aluDivuR (a b : Word64) : Word64 := if b = 0 then 0 else a / b

/-- DIVU (R171). -/
def execDivu (site : Nat) (rd rs1 rs2 : RegNo) (s : State) : Host.Outcome State Fault Refusal :=
  bodyStep (opr 0x00E aluDivuR site rd rs1 rs2) s

/-- The result of MOD (R171). -/
def aluModR (a b : Word64) : Word64 := aluMod a b

/-- MOD (R171). -/
def execMod (site : Nat) (rd rs1 rs2 : RegNo) (s : State) : Host.Outcome State Fault Refusal :=
  bodyStep (opr 0x00F aluModR site rd rs1 rs2) s

/-- The result of MODU (R171). -/
def aluModuR (a b : Word64) : Word64 := if b = 0 then a else a % b

/-- MODU (R171). -/
def execModu (site : Nat) (rd rs1 rs2 : RegNo) (s : State) : Host.Outcome State Fault Refusal :=
  bodyStep (opr 0x010 aluModuR site rd rs1 rs2) s

/-- The result of ADDK (R170). -/
def aluAddkR (imm : BitVec 16) (a : Word64) : Word64 := a + imm.signExtend 64

/-- ADDK (R170). -/
def execAddk (site : Nat) (rd rs1 : RegNo) (imm : BitVec 16) (s : State) : Host.Outcome State Fault Refusal :=
  bodyStep (opk 0x01 (aluAddkR imm) site rd rs1 imm) s

/-- The result of ANDK (R170). -/
def aluAndkR (imm : BitVec 16) (a : Word64) : Word64 := a &&& imm.zeroExtend 64

/-- ANDK (R170). -/
def execAndk (site : Nat) (rd rs1 : RegNo) (imm : BitVec 16) (s : State) : Host.Outcome State Fault Refusal :=
  bodyStep (opk 0x02 (aluAndkR imm) site rd rs1 imm) s

/-- The result of ORK (R170). -/
def aluOrkR (imm : BitVec 16) (a : Word64) : Word64 := a ||| imm.zeroExtend 64

/-- ORK (R170). -/
def execOrk (site : Nat) (rd rs1 : RegNo) (imm : BitVec 16) (s : State) : Host.Outcome State Fault Refusal :=
  bodyStep (opk 0x03 (aluOrkR imm) site rd rs1 imm) s

/-- The result of XORK (R170). -/
def aluXorkR (imm : BitVec 16) (a : Word64) : Word64 := a ^^^ imm.zeroExtend 64

/-- XORK (R170). -/
def execXork (site : Nat) (rd rs1 : RegNo) (imm : BitVec 16) (s : State) : Host.Outcome State Fault Refusal :=
  bodyStep (opk 0x04 (aluXorkR imm) site rd rs1 imm) s

/-- The result of LTK (R170). -/
def aluLtkR (imm : BitVec 16) (a : Word64) : Word64 := if a.slt (imm.signExtend 64) then 1 else 0

/-- LTK (R170). -/
def execLtk (site : Nat) (rd rs1 : RegNo) (imm : BitVec 16) (s : State) : Host.Outcome State Fault Refusal :=
  bodyStep (opk 0x05 (aluLtkR imm) site rd rs1 imm) s

/-- The result of UPK (R170). -/
def aluUpkR (imm : BitVec 16) (_a : Word64) : Word64 := imm.signExtend 64 <<< 16

/-- UPK (R170). -/
def execUpk (site : Nat) (rd rs1 : RegNo) (imm : BitVec 16) (s : State) : Host.Outcome State Fault Refusal :=
  bodyStep (opk 0x07 (aluUpkR imm) site rd rs1 imm) s

/-- The shift of SHK: IMM[7:6] chooses it, IMM[5:0] is the amount (R170). -/
def aluShkR (imm : BitVec 16) (a : Word64) : Word64 :=
  let n := bitsOf imm.toNat 0 6
  match bitsOf imm.toNat 6 2 with
  | 0 => a <<< n
  | 1 => a >>> n
  | _ => a.sshiftRight n

/-- SHK (R170): IMM[7:6] = 0b11 and non-zero IMM[15:8] are ILLEGAL. -/
def execShk (site : Nat) (rd rs1 : RegNo) (imm : BitVec 16) (s : State) : Host.Outcome State Fault Refusal :=
  bodyStep (fun e b => coreDo e site (wordI 0x06 rd rs1 imm)
    (fun _ => illegalIf (bitsOf imm.toNat 6 2 == 3 || bitsOf imm.toNat 8 8 != 0))
    (fun c => c.setX rd (aluShkR imm (c.getX rs1))) b) s

end Sys2Proof.Machine
end

