-- ==== Sys2Proof/Machine/Sha.lean ====
section
/-! DEFINITION. Checksums: SHA-256 (FIPS 180-4) and HMAC-SHA-256 (FIPS 198-1) as R432 and R458 name them, and the
CRC-32C of R334. -/
namespace Sys2Proof.Machine

/-- The round constants of SHA-256 (FIPS 180-4), sixteen to a number, the first most significant. -/
def shaConsts : List Nat :=
  [0x428a2f9871374491b5c0fbcfe9b5dba53956c25b59f111f1923f82a4ab1c5ed5d807aa9812835b01243185be550c7dc372be5d7480deb1fe9bdc06a7c19bf174,
   0xe49b69c1efbe47860fc19dc6240ca1cc2de92c6f4a7484aa5cb0a9dc76f988da983e5152a831c66db00327c8bf597fc7c6e00bf3d5a7914706ca635114292967,
   0x27b70a852e1b21384d2c6dfc53380d13650a7354766a0abb81c2c92e92722c85a2bfe8a1a81a664bc24b8b70c76c51a3d192e819d6990624f40e3585106aa070,
   0x19a4c1161e376c082748774c34b0bcb5391c0cb34ed8aa4a5b9cca4f682e6ff3748f82ee78a5636f84c878148cc7020890befffaa4506cebbef9a3f7c67178f2]

/-- The constant of round `t`. -/
def shaConst (t : Nat) : Nat := bitsOf (shaConsts.getD (t / 16) 0) (32 * (15 - t % 16)) 32

/-- The initial hash value: eight words, the first most significant. -/
def shaStart : Nat := 0x6a09e667bb67ae853c6ef372a54ff53a510e527f9b05688c1f83d9ab5be0cd19

/-- Word `i` of a hash value. -/
def shaWord (s i : Nat) : Nat := bitsOf s (32 * (7 - i)) 32

/-- A 32-bit word rotated right. -/
def rotr (x n : Nat) : Nat := (x >>> n ||| (x <<< (32 - n))) % 2 ^ 32

/-- The message schedule, latest word first, extended by `n` words. -/
def shaExtend : Nat → List Nat → List Nat
  | 0, w => w
  | n + 1, w =>
    let w15 := w.getD 14 0
    let w2 := w.getD 1 0
    let s0 := rotr w15 7 ^^^ rotr w15 18 ^^^ (w15 >>> 3)
    let s1 := rotr w2 17 ^^^ rotr w2 19 ^^^ (w2 >>> 10)
    shaExtend n ((w.getD 15 0 + s0 + w.getD 6 0 + s1) % 2 ^ 32 :: w)

/-- One round with the sum of its constant and its schedule word: every word moves down by one place, the first is new and the
fifth takes the round's sum in. -/
def shaRound (s : Nat) (kw : Nat) : Nat :=
  let e := shaWord s 4
  let a := shaWord s 0
  let choice := (e &&& shaWord s 5) ||| ((0xFFFFFFFF ^^^ e) &&& shaWord s 6)
  let sum := shaWord s 7 + (rotr e 6 ^^^ rotr e 11 ^^^ rotr e 25) + choice + kw
  let most := (a &&& (shaWord s 1 ||| shaWord s 2)) ||| (shaWord s 1 &&& shaWord s 2)
  let first := (sum + (rotr a 2 ^^^ rotr a 13 ^^^ rotr a 22) + most) % 2 ^ 32
  first * 2 ^ 224 + s / 2 ^ 32 - shaWord s 3 * 2 ^ 96 + (shaWord s 3 + sum) % 2 ^ 32 * 2 ^ 96

/-- The big-endian number that bytes spell. -/
def beNum (l : List Byte) : Nat := l.foldl (fun n x => 256 * n + x.toNat) 0

/-- The big-endian bytes of a number. -/
def beBytes (n v : Nat) : List Byte := (leBytes v n).reverse

/-- A list cut into pieces of `k`. -/
def chunks {α : Type} (k : Nat) : Nat → List α → List (List α)
  | 0, _ => []
  | n + 1, l => if l.isEmpty then [] else l.take k :: chunks k n (l.drop k)

/-- One 64-byte block. -/
def shaBlock (s : Nat) (block : List Byte) : Nat :=
  let w := (shaExtend 48 ((chunks 4 16 block).map beNum).reverse).reverse
  let t := w.zipIdx.foldl (fun t x => shaRound t (x.1 + shaConst x.2)) s
  (List.range 8).foldl (fun n i => n * 2 ^ 32 + (shaWord s i + shaWord t i) % 2 ^ 32) 0

/-- SHA-256 of bytes: 32 bytes. -/
def sha256 (m : List Byte) : List Byte :=
  let pad := m ++ [0x80#8] ++ List.replicate ((119 - m.length % 64) % 64) 0#8 ++ beBytes 8 (8 * m.length)
  beBytes 32 ((chunks 64 (pad.length / 64) pad).foldl shaBlock shaStart)

/-- HMAC-SHA-256 of bytes under a key of at most 64 bytes. -/
def hmac256 (key m : List Byte) : List Byte :=
  let k := key ++ List.replicate (64 - key.length) 0#8
  sha256 (k.map (· ^^^ 0x5C#8) ++ sha256 (k.map (· ^^^ 0x36#8) ++ m))

/-- Eight shifts of the reflected CRC-32C register. -/
def crcShift : Nat → Nat → Nat
  | 0, c => c
  | n + 1, c => crcShift n (if c % 2 = 1 then c / 2 ^^^ 0x82F63B78 else c / 2)

/-- CRC-32C of bytes (R334). -/
def crc32c (l : List Byte) : Nat := l.foldl (fun c x => crcShift 8 (c ^^^ x.toNat)) 0xFFFFFFFF ^^^ 0xFFFFFFFF

end Sys2Proof.Machine
end

