-- ==== Sys2Proof/Machine/Time.lean ====
section
/-! DEFINITION. The time base: its state, sources and parent (R305 to R310, R319). -/
namespace Sys2Proof.Machine

/-- TB_CFG.SOURCE (R319). -/
def TimeBase.source (t : TimeBase) : Nat := bitsOf t.cfg.toNat 0 2

/-- TB_CFG.ROOT. -/
def TimeBase.isRoot (t : TimeBase) : Bool := bitOf t.cfg.toNat 3

/-- TB_CFG.MAXSLEW in units of TB_FREQ. -/
def TimeBase.slew (t : TimeBase) : Nat := bitsOf t.cfg.toNat 8 8 * 1000000

/-- A change of STATE sets STATE_EVT and raises its vector (R319, R494). -/
def TimeBase.goto (m : TbMode) (t : TimeBase) (b : Body) : TimeBase × Body :=
  if t.mode = m then (t, b)
  else ({ t with mode := m, stateEvt := true }, if t.stateEvt then b else b.raisePf 4)

/-- TRACKING that ends becomes HOLDOVER (R308). -/
def TimeBase.holdover (t : TimeBase) (b : Body) : TimeBase × Body := if t.mode = .tracking then t.goto .holdover b else (t, b)

/-- ROOT_CONFLICT set. -/
def TimeBase.conflict (t : TimeBase) (b : Body) : TimeBase × Body :=
  if t.rootConflict then (t, b) else ({ t with rootConflict := true }, b.raisePf 4)

/-- TB_OFFSET of a difference, saturating (R319). -/
def offsetBits (d : Int) : BitVec 32 := BitVec.ofInt 32 (max (-(2 ^ 31)) (min (2 ^ 31 - 1) d))

/-- A source time measured: TB_OFFSET, OFFSET_ALARM beyond 1 µs, and a rate correction within ±MAXSLEW. The spec gives no
servo gains, so which correction is open (R308). -/
def TimeBase.servo (src : Nat) (t : TimeBase) (b : Body) : TimeBase × Body :=
  let d : Int := (src : Int) - t.time.toNat
  let (n, b) := b.freshBelow (2 * t.slew + 1)
  let late := d < -1000 || 1000 < d
  let b := if late && !t.offsetAlarm then b.raisePf 4 else b
  ({ t with offset := offsetBits d, offsetAlarm := t.offsetAlarm || late, freq := BitVec.ofInt 32 ((n : Int) - t.slew) }, b)

/-- A time from the selected source: in INIT one that lies ahead steps TB_TIME forward; any other is slewed away
(R306, R308). -/
def TimeBase.feed (src : Word64) (t : TimeBase) (b : Body) : TimeBase × Body :=
  if t.mode = .init && t.time < src then
    { t with time := src, frac := 0, offset := offsetBits ((src.toNat : Int) - t.time.toNat) }.goto .tracking b
  else
    let (t, b) := t.servo src.toNat b
    t.goto .tracking b

/-- TB_SET_WRITE (R306, R319). -/
def tbSet (ag : Agent) (v : Word64) (fu : Fuses) (t : TimeBase) (b : Body) : TimeBase × Body :=
  if mayWrite ag oTbSet && t.mode = .init && t.source = 0 && t.time < v then { t with time := v, frac := 0 }.goto .free b
  else (t, csrError { time := t, fuse := fu } ag oTbSet b)

/-- TB_SET_WRITE. -/
def execTbSetWrite (ag : Agent) (v : Word64) (s : State) : Host.Outcome State Fault Refusal := timeStep (tbSet ag v) s

/-- The hop count and parent of a device that has no parent: 0 hops at a root (R310, R319). -/
def TimeBase.noParent (t : TimeBase) : TimeBase := { t with hops := if t.isRoot then 0 else 63, parent := 0xF }

/-- TB_CFG_WRITE (R319): a reserved value in any field refuses the write whole. -/
def tbCfg (ag : Agent) (v : Word64) (fu : Fuses) (t : TimeBase) (b : Body) : TimeBase × Body :=
  let w := v.toNat % 2 ^ 24 &&& (2 ^ 24 - 1 - 0xC4)
  if mayWrite ag oTbCfg && encodingOk oTbCfg w then
    let u := { t with cfg := BitVec.ofNat 24 w }
    let b := if w ||| 8 != t.cfg.toNat ||| 8 then markDirty b else b
    let moved := u.source != t.source
    let u := if moved || u.isRoot || t.isRoot then u.noParent else u
    if moved then u.holdover b else (u, b)
  else (t, csrError { time := t, fuse := fu } ag oTbCfg b)

/-- TB_CFG_WRITE. -/
def execTbCfgWrite (ag : Agent) (v : Word64) (s : State) : Host.Outcome State Fault Refusal := timeStep (tbCfg ag v) s

/-- STATE of an Ethernet port (R353). -/
def Body.linkState (b : Body) (p : Nat) : Nat := b.field (oFb p 0x10) 0 3

/-- Does a port carry traffic: UP or CHANGING (R347)? -/
def Body.carries (b : Body) (p : Nat) : Bool := b.linkState p == 2 || b.linkState p == 3

-- The PTP receiver (R309; log entry 71).

/-- The first difference in two lists of numbers decides: is the first list the lower? -/
def lower : List Nat → List Nat → Bool
  | x :: l, y :: r => x < y || (x == y && lower l r)
  | _, _ => false

/-- Does the best master clock algorithm prefer one announced master to another? -/
def ptpBefore (x y : Nat × Nat × PtpMaster) : Bool :=
  let f := fun (m : PtpMaster) => [m.prio1, m.cls, m.acc, m.var, m.prio2, m.gm]
  if x.2.2.gm = y.2.2.gm then lower [x.2.2.steps, x.2.1, x.1] [y.2.2.steps, y.2.1, y.1] else lower (f x.2.2) (f y.2.2)

/-- The master that the algorithm chooses: its port and identity. -/
def PtpSt.best (p : PtpSt) : Option (Nat × Nat) :=
  (p.masters.foldl (fun best m =>
    match best with
    | none => some m
    | some x => if ptpBefore m x then some m else best) none).map fun m => (m.1, m.2.1)

/-- What an Announce changes: the master's data, and with another master the measurements begin again. -/
def PtpSt.announce (p : PtpSt) (port sender : Nat) (m : PtpMaster) : PtpSt :=
  let q := { p with masters := p.masters.filter (fun x => !(x.1 == port && x.2.1 == sender)) ++ [(port, sender, m)] }
  if q.best = p.best then q else { q with sync := none, diff := 0, req := none, delay := 0 }

/-- t1 and t2 of a Sync known: the source's time is fed, and a Delay_Req leaves. -/
def TimeBase.syncDone (port : Nat) (t1 t2 : Word64) (t : TimeBase) (b : Body) : TimeBase × Body :=
  let d : Int := (t2.toNat : Int) - t1.toNat
  let src := BitVec.ofInt 64 ((t.time.toNat : Int) - d + t.ptp.delay)
  let seq := t.ptp.next
  let t := { t with ptp := { t.ptp with sync := none, diff := d, req := some (seq, t.time), next := (seq + 1) % 2 ^ 16 } }
  t.feed src (b.send (.delayReq port seq))

/-- A PTP message of the domain on an enabled port. -/
def TimeBase.ptpIn (port : Nat) (t : TimeBase) (b : Body) : PtpMsg → TimeBase × Body
  | .announce sender m => ({ t with ptp := t.ptp.announce port sender m }, b)
  | .sync sender seq two t1 =>
    if t.ptp.best != some (port, sender) then (t, b)
    else if two then ({ t with ptp := { t.ptp with sync := some (seq, t.time) } }, b)
    else t.syncDone port t1 t.time b
  | .followUp sender seq t1 =>
    match t.ptp.sync with
    | some (s, t2) => if t.ptp.best = some (port, sender) && s = seq then t.syncDone port t1 t2 b else (t, b)
    | none => (t, b)
  | .delayResp sender seq t4 =>
    match t.ptp.req with
    | some (s, t3) =>
      if t.ptp.best = some (port, sender) && s = seq then
        ({ t with ptp := { t.ptp with req := none, delay := (t.ptp.diff + ((t4.toNat : Int) - t3.toNat)) / 2 } }, b)
      else (t, b)
    | none => (t, b)

/-- PTP_MESSAGE (R309): with SOURCE = PTP, on an open port that PTP_PORT names, in the domain of TB_CFG. -/
def ptpMessage (port dom : Nat) (m : PtpMsg) (_ : Fuses) (t : TimeBase) (b : Body) : TimeBase × Body :=
  let on := (port == 8 || port == 9) && bitOf t.cfg.toNat (port - 4) && b.carries port
  if on && t.source = 1 && dom = bitsOf t.cfg.toNat 16 8 then t.ptpIn port b m else (t, b)

/-- PTP_MESSAGE. -/
def execPtpMessage (port dom : Nat) (m : PtpMsg) (s : State) : Host.Outcome State Fault Refusal :=
  timeStep (ptpMessage port dom m) s

/-- The source is lost (R308): a PTP master must be announced again. -/
def TimeBase.lost (t : TimeBase) (b : Body) : TimeBase × Body :=
  { t with ptp := { t.ptp with masters := [], sync := none, req := none } }.holdover b

/-- TIME_SOURCE_LOST (R308). -/
def execTimeSourceLost (s : State) : Host.Outcome State Fault Refusal := timeStep (fun _ t b => t.lost b) s

-- In-band time transfer (R310).

/-- Own coordinate (R355). -/
def Body.coord (b : Body) : Nat := b.field (oRtr 0) 0 16

/-- A coordinate's place on axis `a` (R333): 0 is D, 1 M, 2 S, 3 P. -/
def axisOf (c a : Nat) : Nat := bitsOf c (12 - 4 * a) 4

/-- SIZE of an axis (R355). -/
def Body.axisSize (b : Body) (a : Nat) : Nat := axisOf (b.field (oRtr 8) 0 16) a + 1

/-- A coordinate with its place on an axis replaced. -/
def withAxis (c a v : Nat) : Nat := putBits c (12 - 4 * a) 4 v

/-- The neighbour on an axis in the + or − direction (R323). -/
def Body.nextOn (b : Body) (c a : Nat) (plus : Bool) : Nat :=
  let n := b.axisSize a
  withAxis c a ((axisOf c a + if plus then 1 else n - 1) % n)

/-- The coordinate that a torus port leads to (R320, R323). -/
def Body.neighbour (b : Body) (p : Nat) : Nat := b.nextOn b.coord (p / 2) (p % 2 == 0)

/-- Is a coordinate in the dead table (R347)? -/
def Body.isDead (b : Body) (c : Nat) : Bool := b.dev.fab.dead.contains (BitVec.ofNat 16 c)

/-- Can a torus port be routed over (R347)? -/
def Body.usable (b : Body) (p : Nat) : Bool := p < 8 && b.carries p && !b.isDead (b.neighbour p)

/-- A port changed. -/
def Body.modPort (b : Body) (p : Nat) (f : Port → Port) : Body :=
  { b with dev.fab.ports := b.dev.fab.ports.set p (f (b.dev.fab.ports.get Port.initial p)) }

/-- A port. -/
def Body.port (b : Body) (p : Nat) : Port := b.dev.fab.ports.get Port.initial p

/-- The payload of a link control frame (R322): TYPE, version, the sender's PKG_SERIAL and the fields at their offsets, padded
so that the Ethernet frame has 64 bytes. -/
def linkPayload (serial : Word64) (typ : Nat) (fields : List (Nat × List Byte)) : List Byte :=
  fields.foldl (fun l f => putBytes l f.1 f.2)
    (leBytes typ 1 ++ [1#8, 0#8, 0#8] ++ leBytes serial.toNat 8 ++ List.replicate 34 0#8)

/-- Where a link control frame goes (R322): HELLO of a direct link to the broadcast address, any other to the partner. -/
def linkMac (b : Body) (p typ : Nat) : Nat :=
  if (b.port p).modeSw then b.field (oFb p 0x28) 0 48
  else if typ = 1 then 2 ^ 48 - 1
  else (b.port p).mac.toNat

/-- A control frame sent (R322). -/
def control (e : Env) (p typ : Nat) (fields : List (Nat × List Byte)) (b : Body) : Body :=
  b.send (.link p (linkMac b p typ) (linkPayload e.fuse.serial typ fields))

/-- May a port's neighbour be a parent: a direct torus link that carries traffic, its neighbour alive (R310)? -/
def Body.timeLink (b : Body) (p : Nat) : Bool := b.usable p && !(b.port p).modeSw

/-- Is what was heard through one port better than through another: lower root, fewer hops, lower serial (R310)? -/
def Heard.before (x y : Heard) : Bool :=
  x.root < y.root || (x.root == y.root && (x.hops < y.hops || (x.hops == y.hops && x.serial < y.serial)))

/-- The parent that R310 chooses among the live direct links. -/
def TimeBase.choose (t : TimeBase) (b : Body) : Option (Nat × Heard) :=
  (t.heard.filter fun h => b.timeLink h.1).foldl (fun best h =>
    match best with
    | none => some h
    | some x => if h.2.before x.2 then some h else best) none

/-- The parent chosen anew; no root within 63 hops means HOLDOVER (R310). -/
def TimeBase.rechoose (t : TimeBase) (b : Body) : TimeBase × Body :=
  if t.isRoot || t.source != 2 then (t, b)
  else match t.choose b with
    | some (p, h) =>
      if h.hops < 63 then ({ t with parent := BitVec.ofNat 4 p, hops := BitVec.ofNat 6 (h.hops + 1) }, b)
      else t.noParent.holdover b
    | none => t.noParent.holdover b

/-- The roots the device knows of: those heard of, and itself where it is one. -/
def TimeBase.roots (fu : Fuses) (t : TimeBase) : List Word64 :=
  (if t.isRoot then [fu.serial] else []) ++ t.heard.map fun h => h.2.root

/-- TIME (R310): a message on a live direct link. -/
def timeMessage (port : Nat) (tb : Word64) (hops : Nat) (root serial : Word64) (fu : Fuses) (t : TimeBase) (b : Body) :
    TimeBase × Body :=
  if !b.timeLink port then (t, b)
  else
    let t := { t with heard := t.heard.set port { root := root, hops := hops, serial := serial } }
    let rs := t.roots fu
    let (t, b) := if rs.any (fun r => rs.any (· != r)) then t.conflict b else (t, b)
    let (t, b) := t.rechoose b
    if t.source = 2 && !t.isRoot && t.parent = BitVec.ofNat 4 port then t.feed tb b else (t, b)

/-- TIME. -/
def execTime (port : Nat) (tb : Word64) (hops : Nat) (root serial : Word64) (s : State) : Host.Outcome State Fault Refusal :=
  timeStep (timeMessage port tb hops root serial) s

/-- TIME_SEND (R310, R322): TB_TIME, the hop count and the root. Where the device knows no root, what the root field says
is open. -/
def timeSend (port : Nat) (e : Env) (b : Body) : Body :=
  if !b.timeLink port then b
  else
    let (root, b) :=
      if e.time.isRoot then (e.fuse.serial, b)
      else match e.time.heard.find? fun h => h.1 = e.time.parent.toNat with
        | some h => (h.2.root, b)
        | none => b.freshValue
    control e port 3 [(16, leBytes e.time.time.toNat 8), (24, leBytes e.time.hops.toNat 1), (32, leBytes root.toNat 8)] b

/-- TIME_SEND. -/
def execTimeSend (port : Nat) (s : State) : Host.Outcome State Fault Refusal := bodyStep (timeSend port) s

/-- What the time base sees of links that went down: what was heard through them is forgotten, and without its parent
the device is in HOLDOVER (R310). -/
def TimeBase.withLinks (t : TimeBase) (b : Body) : TimeBase × Body :=
  let t := { t with heard := t.heard.filter fun h => b.timeLink h.1 }
  if t.parent != 0xF && !b.timeLink t.parent.toNat then t.noParent.holdover b else (t, b)

/-- A meaning that can take links down. -/
def linkStep (f : Env → Body → Body) (s : State) : Host.Outcome State Fault Refusal :=
  timeStep (fun fu t b => t.withLinks (f { time := t, fuse := fu } b)) s

/-- PARENT_RESELECT (R310): a device without a live parent chooses one. -/
def parentReselect (_ : Fuses) (t : TimeBase) (b : Body) : TimeBase × Body :=
  let (t, b) := t.withLinks b
  if t.parent = 0xF then t.rechoose b else (t, b)

/-- PARENT_RESELECT. -/
def execParentReselect (s : State) : Host.Outcome State Fault Refusal := timeStep parentReselect s

end Sys2Proof.Machine
end

