-- ==== Sys2Proof/Machine/LinkOps.lean ====
section
/-! DEFINITION. What the ports, the router and the transport share: port states (R323 to R330), link retry (R331, R332),
frames (R333, R334), routes (R346 to R348) and the flows of the transport (R335 to R342). -/
namespace Sys2Proof
open Machine

-- Frames.

/-- The Horven header with the hop fields and ECRC taken as zero (R334). -/
def Frame.header (f : Frame) : Nat :=
  1 + f.typ.toNat * 2 ^ 4 + b2n f.ackv * 2 ^ 8 + b2n f.retx * 2 ^ 9 + b2n f.atom * 2 ^ 10 + f.tc.toNat * 2 ^ 12 +
    f.src.toNat * 2 ^ 16 + f.dst.toNat * 2 ^ 32 + f.inc.toNat * 2 ^ 48 + f.seq.toNat * 2 ^ 64 + f.ackseq.toNat * 2 ^ 96 +
    f.payload.length % 2 ^ 16 * 2 ^ 128 + f.sack.toNat * 2 ^ 192

/-- The header whole: hop fields and ECRC too (R334). -/
def Frame.fullHeader (f : Frame) : Nat :=
  f.header + f.lseq.toNat * 2 ^ 144 + f.side.toNat * 2 ^ 160 + b2n f.vclass * 2 ^ 163 + f.ecrc.toNat * 2 ^ 224

/-- The ECRC of a frame (R334). -/
def Frame.crc (f : Frame) : Nat := crc32c (leBytes f.header 32 ++ f.payload)

/-- A frame with the ECRC its source computes. -/
def Frame.seal (f : Frame) : Frame := { f with ecrc := BitVec.ofNat 32 f.crc }

/-- Is the ECRC good? -/
def Frame.good (f : Frame) : Bool := f.ecrc.toNat == f.crc

/-- Bytes of the Ethernet frame with its FCS (R333). -/
def Frame.size (f : Frame) : Nat := f.payload.length + 98

/-- DSCP of a frame (R333). -/
def Frame.dscp (f : Frame) : Nat := 8 * (f.tc.toNat + 1)

/-- UDP source port of a frame (R333). -/
def Frame.udpSource (f : Frame) : Nat := 49152 + (f.src.toNat ^^^ f.dst.toNat ^^^ f.tc.toNat) % 16384

/-- The 16-bit words of a list of bytes, each with its first byte the more significant, summed. -/
def wordSum : List Byte → Nat
  | x :: y :: l => x.toNat * 256 + y.toNat + wordSum l
  | [x] => x.toNat * 256
  | [] => 0

/-- The IPv6 address of a device, as a number (R333). -/
def Frame.address (f : Frame) (c : BitVec 16) : Nat := f.prefixHi.toNat * 2 ^ 64 + c.toNat

/-- The bytes that the UDP checksum covers: the pseudo-header of IPv6, the UDP header with a zero checksum, and the UDP payload
(R333). -/
def Frame.summed (f : Frame) : List Byte :=
  let n := f.payload.length + 40
  (leBytes (f.address f.src) 16).reverse ++ (leBytes (f.address f.dst) 16).reverse ++ (leBytes n 4).reverse ++ (leBytes 17 4).reverse ++
    (leBytes f.udpSource 2).reverse ++ (leBytes f.udp.toNat 2).reverse ++ (leBytes n 2).reverse ++ [0#8, 0#8] ++
    leBytes f.fullHeader 32 ++ f.payload

/-- The UDP checksum of a frame: the complement of the ones' complement sum, and all ones for a sum that would give 0. -/
def Frame.checksum (f : Frame) : BitVec 16 :=
  let s := wordSum f.summed
  let r := 0xFFFF - (if s % 0xFFFF = 0 && s != 0 then 0xFFFF else s % 0xFFFF)
  if r = 0 then 0xFFFF else BitVec.ofNat 16 r

/-- A frame as it goes on the wire: ECN and flow label 0, and the UDP checksum of what is sent (R333). -/
def Frame.onWire (f : Frame) : Frame := { f with phy := PhyIn.clean, ecn := 0, label := 0, udpSum := f.checksum }

/-- Bits `[lo + len − 1 : lo]` of the operation header at the start of a payload (R367). -/
def Frame.hdr (f : Frame) (lo len : Nat) : Nat := bitsOf (ofBytes (f.payload.take 32)) lo len

/-- OPC of a DATA frame (R367). -/
def Frame.opc (f : Frame) : Nat := f.hdr 0 8

/-- The data after the operation header. -/
def Frame.body (f : Frame) : List Byte := f.payload.drop 32

/-- Is a DATA frame a management message (R431)? -/
def Frame.isMgmt (f : Frame) : Bool := f.hdr 128 9 == 0x1FF

namespace Machine

/-- A frame this device originates, before the transport numbers it (R333, R334). -/
def newFrame (b : Body) (typ dst tc : Nat) (atom : Bool) (payload : List Byte) : Frame where
  phy := PhyIn.clean
  ecn := 0
  label := 0
  prefixHi := BitVec.ofNat 64 (b.csr (oRtr 0x10))
  udp := BitVec.ofNat 16 (b.field (oRtr 0x18) 0 16)
  udpSum := 0
  hop := 64
  typ := BitVec.ofNat 4 typ
  ackv := false
  retx := false
  atom := atom
  tc := BitVec.ofNat 2 tc
  src := BitVec.ofNat 16 b.coord
  dst := BitVec.ofNat 16 dst
  inc := BitVec.ofNat 16 (b.field (oRtr 0x20) 0 16)
  seq := 0
  ackseq := 0
  lseq := 0
  side := 0
  vclass := false
  sack := 0
  ecrc := 0
  payload := payload

-- Ports.

/-- Is it a torus port? -/
def isTorus (p : Nat) : Bool := p < 8

/-- The partner's PKG_SERIAL (R353). -/
def Body.peer (b : Body) (p : Nat) : Nat := b.csr (oFb p 0x18)

/-- STATE of a port changes: STATE_EVT (R353). -/
def Body.setLink (b : Body) (p st : Nat) : Body :=
  if b.linkState p = st then b else (b.setField (oFb p 0x10) 0 3 st).setEvent (oFb p 0x10) 29 5

/-- ACTIVE and WIDTH of a port (R353). -/
def Body.setLanes (b : Body) (p lanes : Nat) : Body :=
  (b.setField (oFb p 0x10) 8 8 lanes).setField (oFb p 0x10) 4 4 ((List.range 8).countP (bitOf lanes))

/-- Is link retry active on a port (R331)? -/
def Body.llr (b : Body) (p : Nat) : Bool := b.flag (oFb p 0x10) 3

/-- The end's good-lane mask (R325). -/
def Port.good (q : Port) : Nat := (q.laneMask &&& ~~~q.bad).toNat

/-- GOOD shows the good-lane mask. -/
def showGood (p : Nat) (b : Body) : Body := b.setField (oFb p 0x10) 16 8 (b.port p).good

/-- The widest width that a mask allows (R326). -/
def pickLanes (g : Nat) : Option Nat :=
  if g % 256 = 0xFF then some 0xFF
  else if g % 16 = 0xF then some 0x0F
  else if g / 16 % 16 = 0xF then some 0xF0
  else ((List.range 4).find? fun j => bitsOf g (2 * j) 2 == 3).map fun j => 3 * 4 ^ j

/-- The width that a port runs on the lanes `g` that trained, LANE_MASK's among them: a switched or open link runs its LANE_MASK
whole or not at all, 8 lanes on the torus or 4 (R321). -/
def trainedLanes (p : Nat) (q : Port) (g : Nat) : Option Nat :=
  if isTorus p && !q.modeSw then pickLanes g
  else if isTorus p && q.laneMask = 0xFF then if g % 256 = 0xFF then some 0xFF else none
  else if g % 256 = 0xF && (q.laneMask = 0x0F || !isTorus p) then some 0x0F
  else none

/-- Bytes that the replay buffer of a port holds (R332). -/
def Port.replayBytes (q : Port) : Nat := (q.replay.map fun r => r.2.1.size).sum

/-- A frame leaves on a port; with link retry it takes the next link sequence and is kept (R332). -/
def transmit (p : Nat) (f : Frame) (b : Body) : Body :=
  if b.llr p then
    let q := b.port p
    let f := { f with lseq := q.llrNext }.onWire
    (b.modPort p fun q => { q with llrNext := q.llrNext + 1, replay := q.replay ++ [(f.lseq, f, 0)] }).send (.horven p f)
  else b.send (.horven p { f with lseq := 0 }.onWire)

/-- Would a frame end on the old lanes before K is due (R327)? Each lane carries 200 bits a nanosecond, and a frame takes
20 bytes of preamble and gap with it (R333). -/
def endsBefore (e : Env) (b : Body) (p : Nat) (f : Frame) : Bool :=
  match (b.port p).goK with
  | none => false
  | some k =>
    let d := kickDiff e.now k.toNat
    let w := b.field (oFb p 0x10) 4 4
    !(b.port p).switched && 0 < d && d ≤ 1000000 && (((f.size + 20) * 8 : Nat) : Int) < d * ((200 * w : Nat) : Int)

/-- May a frame leave on a port now (R327, R332)? -/
def canLeave (e : Env) (b : Body) (p : Nat) (f : Frame) : Bool :=
  (b.linkState p == 2 || (b.linkState p == 3 && endsBefore e b p f)) &&
    (!b.llr p || ((b.port p).replayBytes + f.size ≤ 2 ^ 20 && (b.port p).again.isNone))

/-- A frame that has its turn at a port leaves where it may and its buffer has space (R348), else it waits. -/
def tryLeave (e : Env) (p : Nat) (f : Frame) (b : Body) : Body :=
  if canLeave e b p f && !e.full.contains (p, f.tc.toNat, f.vclass) then transmit p f b
  else b.modPort p fun q => { q with queue := q.queue ++ [f] }

/-- What waits at a port in the order of R345: TC 3, TC 0, then TC 1 and TC 2 as they came. -/
def byClass (l : List Frame) : List Frame :=
  l.filter (·.tc == 3) ++ l.filter (·.tc == 0) ++ l.filter fun f => f.tc == 1 || f.tc == 2

/-- The frames that wait at a port try again. -/
def drainPort (e : Env) (p : Nat) (b : Body) : Body :=
  overList (byClass (b.port p).queue) (tryLeave e p) (b.modPort p fun q => { q with queue := [] })

/-- A frame is given to a port: what waits there has its turn with it. -/
def offer (e : Env) (p : Nat) (f : Frame) (b : Body) : Body :=
  if (b.port p).queue.isEmpty || b.linkState p == 3 then tryLeave e p f b
  else drainPort e p (b.modPort p fun q => { q with queue := q.queue ++ [f] })

-- Routes (R346 to R348).

/-- Where the router sends a frame. -/
inductive Route where
  | here
  | out (port side : Nat)
  | drop
  deriving DecidableEq, Repr

/-- The axis a SIDE value names (R334). -/
def sideAxis (s : Nat) : Option Nat := if 4 ≤ s then some (s % 4) else none

/-- Is + the shorter way to a place on an axis (R346)? -/
def plusShorter (b : Body) (dst a : Nat) : Bool :=
  let n := b.axisSize a
  let d := (axisOf dst a + n - axisOf b.coord a) % n
  d ≤ n - d

/-- `step` of R346. -/
def stepRoute (b : Body) (dst side a : Nat) : Route :=
  let plus := plusShorter b dst a
  let p := 2 * a + b2n (!plus)
  let m := 2 * a + b2n plus
  if b.usable p then .out p side
  else if b.usable m then .out m side
  else
    let ports := (List.range 4).flatMap fun x => if x != a && 1 < b.axisSize x then [2 * x, 2 * x + 1] else []
    match ports.find? b.usable with
    | some p => .out p (4 + p / 2)
    | none => .drop

/-- `route` of R346. -/
def route (b : Body) (dst side : Nat) : Route :=
  let away := fun a => axisOf b.coord a != axisOf dst a
  match (List.range 4).find? fun a => sideAxis side != some a && away a with
  | some a => stepRoute b dst side a
  | none =>
    match sideAxis side with
    | some a => if away a then stepRoute b dst 0 a else .here
    | none => .here

/-- Does a port's link join coordinates SIZE − 1 and 0 of its ring (R348)? -/
def wrapsRing (b : Body) (p : Nat) : Bool :=
  let a := p / 2
  let x := axisOf b.coord a
  if p % 2 = 0 then x + 1 == b.axisSize a else x == 0

/-- A dropped frame that has no way out (R346, R347). -/
def unroutable (b : Body) : Body := (b.bumpSat (oRtr 0x60) 48 16).setEvent (oRtr 0x50) 33 5

/-- Route a frame, which came in at a port or starts here: onto a port with its hop fields, or dropped (R346 to R348).
A frame for this device is left to the caller. -/
def routeFrame (e : Env) (inPort : Option Nat) (f : Frame) (b : Body) : Body :=
  if b.isDead f.dst.toNat then unroutable b
  else match route b f.dst.toNat f.side.toNat with
    | .here => b
    | .drop => unroutable b
    | .out p side =>
      let same := match inPort with | some i => i / 2 == p / 2 | none => false
      let cls := side != 0 || wrapsRing b p || (same && f.vclass)
      offer e p { f with side := BitVec.ofNat 3 side, vclass := cls } b

/-- The queue of a port routed anew, with the port unusable (R330). -/
def rerouteQueue (e : Env) (p : Nat) (b : Body) : Body :=
  overList (b.port p).queue (routeFrame e (some p)) (b.modPort p fun q => { q with queue := [] })

/-- A port leaves UP and CHANGING for a state: its requests are abandoned, its retry buffer is discarded, and its queue is
routed anew (R330). -/
def leaveUp (e : Env) (p st : Nat) (b : Body) : Body :=
  let b := (b.setLink p st).setField (oFb p 0x10) 3 1 0
  let b := b.setLanes p 0
  rerouteQueue e p (b.modPort p fun q =>
    { q with locked := false, req := .none_, held := [], want := .none_, goK := none, switched := false, replay := [],
             llrNext := 0, llrExp := 0, nak := false, again := none })

/-- FAULT with a cause (R323, R326, R332). -/
def linkFault (e : Env) (p cause : Nat) (b : Body) : Body := (leaveUp e p 4 b).setField (oFb p 0x10) 24 4 cause

/-- Training starts: every bad-lane mark is cleared and the written configuration taken (R329, R331, R353). A request held
while the port was CHANGING goes on waiting (R328). -/
def startTraining (e : Env) (p : Nat) (b : Body) : Body :=
  let was := b.port p
  let waits := b.linkState p == 3
  let b := (leaveUp e p 1 b).setField (oFb p 0x10) 24 4 0
  let c := b.csr (oFb p 0)
  showGood p (b.modPort p fun q =>
    { q with held := if waits then was.held else [], want := if waits then was.want else .none_,
             bad := 0, modeSw := isTorus p && bitOf c 1, laneMask := BitVec.ofNat 8 (bitsOf c 8 8),
             llrEn := isTorus p && bitOf c 2 })

-- Flows (R335 to R342).

/-- The flows with a device in one traffic class. -/
def flowKey (c tc : Nat) : Nat := 4 * c + tc

/-- Their state. -/
def Body.flow (b : Body) (k : Nat) : Flow := b.dev.fab.flows.get Flow.initial k

/-- Their state changed. -/
def Body.modFlow (b : Body) (k : Nat) (f : Flow → Flow) : Body :=
  { b with dev.fab.flows := b.dev.fab.flows.set k (f (b.flow k)) }

/-- Received sequences of a flow whose frames are not yet applied, which may not be acknowledged (R365). -/
def pendingSeqs (b : Body) (k : Nat) : List Nat :=
  ((b.dev.fab.inbox ++ b.dev.fab.atomQ.map (·.f)).filter fun f => flowKey f.src.toNat f.tc.toNat == k).map (·.seq.toNat) ++
    ((b.dev.fab.deferred ++ b.dev.fab.answering).filter fun x => x.1 == k).map (·.2)

/-- The next sequence expected, as an acknowledgement may state it (R339, R365). -/
def ackSeq (b : Body) (k : Nat) : Nat :=
  (pendingSeqs b k).foldl (fun m s => if serialDiff s m 32 < 0 then s else m) (b.flow k).expect

/-- SACK: which sequences beyond it have been received (R334, R339). -/
def sackBits (b : Body) (k : Nat) : Nat :=
  let fl := b.flow k
  let a := ackSeq b k
  ((List.range 32).map fun i =>
    let s := (a + 1 + i) % 2 ^ 32
    let seen := serialDiff s fl.expect 32 < 0 || fl.got.contains s
    if seen && !(pendingSeqs b k).contains s then 2 ^ i else 0).sum

/-- A frame that carries the acknowledgement of its reverse flow (R339). -/
def withAck (b : Body) (k : Nat) (f : Frame) : Frame :=
  { f with ackv := true, ackseq := BitVec.ofNat 32 (ackSeq b k), sack := BitVec.ofNat 32 (sackBits b k) }

/-- A DATA or ARESP frame goes out, with the acknowledgement that is due (R339). -/
def sendFrame (e : Env) (k : Nat) (f : Frame) (b : Body) : Body :=
  if (b.flow k).ackDue then
    let f := (withAck b k f).seal
    routeFrame e none f (b.modFlow k fun fl => { fl with ackDue := false })
  else routeFrame e none { f with ackv := false, ackseq := 0, sack := 0 }.seal b

/-- An ACK frame (R339). -/
def sendAck (e : Env) (k : Nat) (b : Body) : Body :=
  let f := withAck b k (newFrame b 2 (k / 4) (k % 4) false [])
  routeFrame e none f.seal (b.modFlow k fun fl => { fl with ackDue := false })

/-- FB_XPORT.WINDOW. -/
def window (b : Body) : Nat := b.field (oRtr 0x28) 40 9

/-- May a frame of a flow be sent first time now (R337)? -/
def maySend (b : Body) (k : Nat) (f : Frame) : Bool :=
  let fl := b.flow k
  fl.unacked.length < window b && !(f.atom && fl.unacked.any fun t => t.aresp && t.f.seq.toNat % 64 == fl.next % 64)

/-- A frame's first transmission (R337, R341). -/
def firstSend (e : Env) (k : Nat) (o : Outgoing) (b : Body) : Body :=
  let f := { o.f with seq := BitVec.ofNat 32 (b.flow k).next }
  let t : TxFrame := { f := f, owners := o.owners, frees := o.frees, held := none, acked := false, aresp := f.atom, rto := b.field (oRtr 0x28) 0 16, retx := 0, fast := false }
  sendFrame e k f (b.modFlow k fun fl => { fl with next := (fl.next + 1) % 2 ^ 32, unacked := fl.unacked ++ [t] })

/-- The frames of a flow that wait are sent while R337 allows; an atomic that must wait may be passed. -/
def pump (e : Env) (k : Nat) (b : Body) : Body :=
  let l := (b.flow k).waiting
  overList l (fun o b =>
    if maySend b k o.f then firstSend e k o b else b.modFlow k fun fl => { fl with waiting := fl.waiting ++ [o] })
    (b.modFlow k fun fl => { fl with waiting := [] })

/-- A DATA frame for a device is handed to the transport (R337). -/
def sendData (e : Env) (dst tc : Nat) (atom : Bool) (payload : List Byte) (owners : List (Nat × Nat)) (b : Body) : Body :=
  let k := flowKey dst tc
  pump e k (b.modFlow k fun fl => { fl with waiting := fl.waiting ++ [⟨newFrame b 1 dst tc atom payload, owners, none⟩] })

/-- A DATA frame that tells an issuer why its frame was not written; until the issuer has acknowledged it, that frame is not
acknowledged (R365, R376). -/
def sendAnswer (e : Env) (f : Frame) (payload : List Byte) (b : Body) : Body :=
  let k := flowKey f.src.toNat f.tc.toNat
  let x := (k, f.seq.toNat)
  let o : Outgoing := { f := newFrame b 1 f.src.toNat f.tc.toNat false payload, owners := [], frees := some x }
  let b := { b with dev.fab.answering := b.dev.fab.answering ++ [x] }
  pump e k (b.modFlow k fun fl => { fl with waiting := fl.waiting ++ [o] })

/-- An ARESP: the status and the returned old value (R340, R367). -/
def sendAresp (e : Env) (k seq result : Nat) (b : Body) : Body :=
  let f := newFrame b 3 (k / 4) (k % 4) false (leBytes result 16)
  sendFrame e k { f with seq := BitVec.ofNat 32 seq } b

/-- A frame is sent again; the alarm of R341. -/
def resend (e : Env) (k : Nat) (t : TxFrame) (b : Body) : Body :=
  let b := sendFrame e k { t.f with retx := true } b
  if t.retx + 1 = b.field (oRtr 0x28) 56 8 then
    let b := b.setEvent (oRtr 0x50) 32 5
    if b.flag (oRtr 0x58) 63 then b else b.setCsr (oRtr 0x58) (2 ^ 63 + k / 4)
  else b

/-- A frame of a flow changed where its sequence is `seq`. -/
def modTx (k seq : Nat) (g : TxFrame → TxFrame) (b : Body) : Body :=
  b.modFlow k fun fl => { fl with unacked := mapWhere fl.unacked (fun t => t.f.seq.toNat == seq) g }

/-- An operation of a site's copy engine changed. -/
def Body.modOp (b : Body) (s tag : Nat) (g : CpOp → CpOp) : Body :=
  b.modSite s fun t => { t with cp := { t.cp with ops := mapWhere t.cp.ops (·.tag == tag) g } }

/-- A frame of an operation is done with: the operation waits for one less. -/
def ownerDone (o : Nat × Nat) (b : Body) : Body := b.modOp o.1 o.2 fun x => { x with await_ := x.await_ - 1 }

/-- An answer has reached its issuer: the frame that it answers may be acknowledged (R365). -/
def freed (x : Nat × Nat) (b : Body) : Body :=
  { b with dev.fab.answering := b.dev.fab.answering.filter (· != x) }.modFlow x.1 fun fl => { fl with ackDue := true }

/-- What is acknowledged, and answered where it had to be, leaves the flow (R337). -/
def settleFlow (e : Env) (k : Nat) (b : Body) : Body :=
  let spent := fun (t : TxFrame) => t.acked && !t.aresp
  let l := (b.flow k).unacked.filter spent
  let b := b.modFlow k fun fl => { fl with unacked := fl.unacked.filter fun t => !spent t }
  pump e k (overList (l.filterMap (·.frees)) freed (overList (l.flatMap (·.owners)) ownerDone b))

/-- Does a SACK word cover a sequence? -/
def sacked (ackseq sack s : Nat) : Bool :=
  let d := serialDiff s ackseq 32
  1 ≤ d && d ≤ 32 && bitOf sack (d - 1).toNat

/-- An acknowledgement reaches the sender (R337, R338, R341). -/
def takeAck (e : Env) (k : Nat) (f : Frame) (b : Body) : Body :=
  let a := f.ackseq.toNat
  let w := f.sack.toNat
  if !f.ackv || serialDiff a (b.flow k).ackHeld 32 < 0 then b
  else
    let b := b.modFlow k fun fl => { fl with
      ackHeld := a,
      unacked := fl.unacked.map fun t =>
        { t with acked := t.acked || serialDiff t.f.seq.toNat a 32 < 0 || sacked a w t.f.seq.toNat } }
    let b := settleFlow e k b
    let lost := (b.flow k).unacked.filter fun t =>
      !t.acked && !t.fast && t.held.isNone &&
        3 ≤ (List.range 32).countP fun i => bitOf w i && 0 < serialDiff ((a + 1 + i) % 2 ^ 32) t.f.seq.toNat 32
    overList lost (fun t b =>
      modTx k t.f.seq.toNat (fun t => { t with fast := true, retx := t.retx + 1 }) (resend e k t b)) b

-- Receiving (R332, R333, R336, R338).

/-- A dropped frame counted in a field of FB_RX_DROP. -/
def rxDrop (p lo len : Nat) (b : Body) : Body := b.bumpSat (oFb p 0x40) lo len

/-- A frame whose FCS or ECRC fails (R338): FB_RX_DROP.FCS and a record of the port's detector (R434). -/
def crcFail (e : Env) (p : Nat) (inj : Bool) (b : Body) : Body :=
  recordErr e { kind := 8, sev := 0, inj := inj, det := detOf 9 p } (rxDrop p 0 32 b)

/-- LLR_NAK: until the expected frame arrives, the frames behind it are the gap that it reports (R332; log entry 29). -/
def sendNak (e : Env) (p : Nat) (b : Body) : Body :=
  let b := (b.modPort p fun q => { q with nak := true }).bumpSat (oFb p 0x38) 0 32
  control e p 9 [(12, leBytes (b.port p).llrExp.toNat 2)] b

/-- A field that counts up by `n`, stopping at its largest value. -/
def addSat (b : Body) (o lo len n : Nat) : Body :=
  if n = 0 then b else b.setField o lo len (min (b.field o lo len + n) (2 ^ len - 1))

/-- The unit of a port's detector at which the next frame meets an injected CRC failure: an active lane (R434, R438). -/
def armedLane (b : Body) (p : Nat) : Option Nat :=
  (List.range 8).find? fun l => bitOf (b.field (oFb p 0x10) 8 8) l && injected b (detOf 9 p) l == some 2

/-- A frame comes in at a port (R321, R353, R434): its codewords are counted, and its FCS is checked. Is it good, and was it
made bad by injection? -/
def phyIn (p : Nat) (f : PhyIn) (b : Body) : Bool × Bool × Body :=
  let b := addSat (addSat b (oFb p 0x30) 0 32 f.corr) (oFb p 0x30) 32 32 f.uncorr
  match armedLane b p with
  | some _ => (false, true, useInjection b)
  | none => (f.fcsOk && f.uncorr == 0, false, b)

/-- The checks of the link: FCS, then link retry (R332, R338). Was the frame accepted? -/
def linkAccept (e : Env) (p : Nat) (f : Frame) (b : Body) : Bool × Body :=
  let (ok, inj, b) := phyIn p f.phy b
  let llr := b.llr p
  if !ok || (llr && !f.good) then
    let b := crcFail e p inj b
    (false, if llr then sendNak e p b else b)
  else if !llr then (true, b)
  else if f.lseq == (b.port p).llrExp then
    let b := b.modPort p fun q => { q with llrExp := q.llrExp + 1, nak := false }
    (true, control e p 8 [(12, leBytes (b.port p).llrExp.toNat 2)] b)
  else
    let b := rxDrop p 32 16 b
    (false, if 0 < serialDiff f.lseq.toNat (b.port p).llrExp.toNat 16 && !(b.port p).nak then sendNak e p b else b)

/-- A transit frame sent on, its hop limit lowered (R333, R346, R348). -/
def forward (e : Env) (p : Nat) (f : Frame) (b : Body) : Body :=
  if f.hop ≤ 1 then b.bumpSat (oRtr 0x60) 32 16 else routeFrame e (some p) { f with hop := f.hop - 1 } b

/-- INC under R336: is the frame of the flow's incarnation? -/
def incAccept (p k : Nat) (f : Frame) (b : Body) : Bool × Body :=
  match (b.flow k).inc with
  | none => (true, b.modFlow k fun fl => { fl with inc := some f.inc })
  | some i => if i = f.inc then (true, b) else (false, (rxDrop p 48 16 b).setEvent (oRtr 0x50) 34 5)

/-- A received sequence is marked, and the next expected passes every consecutive one (R338). -/
def advanceExpect : Nat → Flow → Flow
  | 0, fl => fl
  | n + 1, fl =>
    if fl.got.contains fl.expect then
      advanceExpect n { fl with got := fl.got.filter (· != fl.expect), expect := (fl.expect + 1) % 2 ^ 32 }
    else fl

/-- Mark a sequence received. -/
def Flow.mark (fl : Flow) (s : Nat) : Flow :=
  let g := { fl with got := s :: fl.got }
  advanceExpect g.got.length g

/-- A frame that is no longer in the inbox has been applied: it may be acknowledged (R365). -/
def applied (f : Frame) (b : Body) : Body :=
  if f.src.toNat = b.coord then b else b.modFlow (flowKey f.src.toNat f.tc.toNat) fun fl => { fl with ackDue := true }

/-- A DATA frame classified (R338): `take` receives a new one. -/
def receiveData (e : Env) (p : Nat) (f : Frame) (take : Frame → Body → Body) (b : Body) : Body :=
  let k := flowKey f.src.toNat f.tc.toNat
  let fl := b.flow k
  let s := f.seq.toNat
  let d := serialDiff s fl.expect 32
  if b.dev.fab.deferred.contains (k, s) then
    take f ({ b with dev.fab.deferred := b.dev.fab.deferred.erase (k, s) }.modFlow k fun fl => { fl with ackDue := true })
  else if d < 0 || fl.got.contains s then
    let b := match f.atom, fl.results.get (2 ^ 32, 0) (s % 64) with
      | true, (s', r) => if s' = s then sendAresp e k s r b else b
      | false, _ => b
    sendAck e k b
  else if d < 256 then
    if f.isMgmt && 64 ≤ b.dev.mp.queue.length then b
    else if f.payload.length < 32 || !(1 ≤ f.opc && f.opc ≤ 10) then
      (rxDrop p 48 16 b).modFlow k fun fl => { fl.mark s with ackDue := true }
    else
      let b := take f (b.modFlow k fun fl => { fl.mark s with ackDue := true })
      if 0 < d then sendAck e k b else b
  else rxDrop p 32 16 b

/-- A Horven frame at an open port, which carries none (R321, R350). -/
def strayFrame (e : Env) (p : Nat) (f : Frame) (b : Body) : Body :=
  let (ok, inj, b) := phyIn p f.phy b
  if ok then rxDrop p 48 16 b else crcFail e p inj b

/-- A frame reaches a port (R332, R333, R336, R338): forwarded, or checked and handed to `here`. -/
def receive (e : Env) (p : Nat) (f : Frame) (here : Nat → Frame → Body → Body) (b : Body) : Body :=
  if 10 ≤ p || !b.carries p then b
  else if !isTorus p then strayFrame e p f b
  else
    let (ok, b) := linkAccept e p f b
    let addr := f.prefixHi.toNat == b.csr (oRtr 0x10) && f.udp.toNat == b.field (oRtr 0x18) 0 16
    if !ok then b
    else if f.dst.toNat != b.coord then if addr then forward e p f b else rxDrop p 48 16 b
    else if !f.good then crcFail e p false b
    else if !addr then rxDrop p 48 16 b
    else
      let k := flowKey f.src.toNat f.tc.toNat
      let (ok, b) := incAccept p k f b
      if !ok then b
      else if !(1 ≤ f.typ.toNat && f.typ.toNat ≤ 3) then rxDrop p 48 16 b
      else here k f b

end Machine

end Sys2Proof
end

