-- ==== Sys2Proof/Machine/Link.lean ====
section
/-! DEFINITION. The links (R320 to R332), the router's rows (R346 to R349, R354) and the transport rows that concern no
operation (R338, R339, R341). -/
namespace Sys2Proof.Machine

-- Requests (R326 to R328).

/-- Does a port run in DIRECT mode on the torus (R321)? -/
def Body.direct (b : Body) (p : Nat) : Bool := isTorus p && !(b.port p).modeSw

/-- WIDTH_REQ sent, unless a request of this end is already out (R326). -/
def sendWidthReq (e : Env) (p : Nat) (b : Body) : Body :=
  if (b.port p).req = .none_ then
    control e p 4 [(12, leBytes (b.port p).good 1)] (b.modPort p fun q => { q with req := .width })
  else b

/-- The leader has the partner's mask: WIDTH_GO, or NO_WIDTH (R326, R327). -/
def widthGoFrom (e : Env) (p mask : Nat) (b : Body) : Body :=
  match pickLanes ((b.port p).good &&& mask) with
  | none => linkFault e p 4 b
  | some g =>
    let k := (e.now + 20000) % 2 ^ 32
    let b := b.modPort p fun q => { q with req := .none_, goMask := BitVec.ofNat 8 g, goK := some (BitVec.ofNat 32 k), switched := false }
    (control e p 6 [(12, leBytes g 1), (16, leBytes k 4)] b).setLink p 3

/-- A retrain of a port that this end starts: RETRAIN_REQ where the partner can hear it (R328, R329). -/
def retrain (e : Env) (p : Nat) (b : Body) : Body :=
  if isTorus p && b.linkState p = 2 then
    (startTraining e p (control e p 7 [] b)).modPort p fun q => { q with req := .retrain }
  else startTraining e p b

/-- A WIDTH_REQ evaluated in UP (R328). -/
def evalWidthReq (e : Env) (p mask : Nat) (b : Body) : Body :=
  if (b.port p).req = .width && e.fuse.serial.toNat < b.peer p then widthGoFrom e p mask b
  else control e p 5 [(12, leBytes (b.port p).good 1)] (b.modPort p fun q => { q with req := .none_ })

/-- A RETRAIN_REQ evaluated in UP: this end trains too, its own width request dropped (R328). -/
def evalRetrainReq (e : Env) (p : Nat) (b : Body) : Body := startTraining e p b

/-- Frames of the replay buffer sent again, as long as the port lets them leave (R327, R332); the first that may not leave is
where the replay goes on. Replays are counted, and a frame that was replayed 8 times faults the port. -/
def replayFrom (e : Env) (p : Nat) (l : List (BitVec 16 × Frame × Nat)) (b : Body) : Body :=
  let st := b.linkState p
  let out := l.takeWhile fun x => st == 2 || (st == 3 && endsBefore e b p x.2.1)
  let b := b.modPort p fun q =>
    { q with again := (l.drop out.length).head?.map (·.1)
             replay := q.replay.map fun r => if out.any (·.1 == r.1) then (r.1, r.2.1, r.2.2 + 1) else r }
  let b := overList out (fun x b => (b.send (.horven p x.2.1)).bumpSat (oFb p 0x38) 32 32) b
  if (b.port p).replay.any fun r => 8 ≤ r.2.2 then linkFault e p 5 b else b

/-- The replay that waited for the port goes on. -/
def replayRest (e : Env) (p : Nat) (b : Body) : Body :=
  match (b.port p).again with
  | none => b
  | some s => replayFrom e p ((b.port p).replay.filter fun r => 0 ≤ serialDiff r.1.toNat s.toNat 16) b

/-- The port is UP again: a replay goes on, what waited leaves, held requests are evaluated, and an active lane that went bad
meanwhile asks for a new width (R326 to R328). -/
def backUp (e : Env) (p : Nat) (b : Body) : Body :=
  let q := b.port p
  let b := (b.modPort p fun q => { q with held := [], want := .none_, req := .none_, goK := none, switched := false }).setLink p 2
  let b := drainPort e p (replayRest e p b)
  let b := overList q.held (fun (r, m) b =>
    if b.linkState p != 2 then b.modPort p fun q => { q with held := q.held ++ [(r, m)] }
    else match r with
      | .width => evalWidthReq e p m.toNat b
      | .retrain => evalRetrainReq e p b
      | .none_ => b) b
  if b.linkState p != 2 then b.modPort p fun x => { x with want := q.want }
  else match q.want with
    | .retrain => retrain e p b
    | .width => sendWidthReq e p b
    | .none_ =>
      if b.flag (oFb p 0) 3 && b.direct p && q.bad.toNat &&& b.field (oFb p 0x10) 8 8 != 0 then sendWidthReq e p b else b

-- Port rows.

/-- PORT_ENABLE (R353): EN set begins training; EN cleared takes the port down and out of FAULT. -/
def portEnable (ag : Agent) (p : Nat) (en : Bool) (e : Env) (b : Body) : Body :=
  if 10 ≤ p then b
  else guarded e ag (oFb p 0) b
    (if en == b.flag (oFb p 0) 0 then b
     else
       let b := b.setField (oFb p 0) 0 1 (b2n en)
       if en then startTraining e p b else (leaveUp e p 0 b).setField (oFb p 0x10) 24 4 0)

/-- PORT_ENABLE. -/
def execPortEnable (ag : Agent) (port : Nat) (en : Bool) (s : State) : Host.Outcome State Fault Refusal :=
  linkStep (portEnable ag port en) s

/-- Is a port enabled and training, or down with training to come (R323, R328)? -/
def Body.training (b : Body) (p : Nat) : Bool := b.flag (oFb p 0) 0 && b.linkState p ≤ 1

/-- LINK_TRAINED (R321, R329): training ends at the widest width that the trained lanes give; an open port is then UP. -/
def linkTrained (p : Nat) (lanes : BitVec 8) (e : Env) (b : Body) : Body :=
  if 10 ≤ p || !b.training p then b
  else match trainedLanes p (b.port p) (lanes.toNat &&& (b.port p).laneMask.toNat) with
    | none => linkFault e p 4 b
    | some g =>
      let b := (b.setLink p 1).setLanes p g
      if isTorus p then b else backUp e p b

/-- LINK_TRAINED. -/
def execLinkTrained (port : Nat) (lanes : BitVec 8) (s : State) : Host.Outcome State Fault Refusal :=
  linkStep (linkTrained port lanes) s

/-- PCS_LOCK (R323): the HELLO exchange of a torus port starts. Where training has reported no lanes, the port runs the
widest width of its LANE_MASK. -/
def pcsLock (p : Nat) (b : Body) : Body :=
  if !isTorus p || !b.training p then b
  else
    let b := (b.setLink p 1).modPort p fun q => { q with locked := true }
    if b.field (oFb p 0x10) 8 8 != 0 then b
    else b.setLanes p ((trainedLanes p (b.port p) (b.port p).laneMask.toNat).getD 0)

/-- PCS_LOCK. -/
def execPcsLock (port : Nat) (s : State) : Host.Outcome State Fault Refusal := bodyStep (fun _ b => pcsLock port b) s

/-- Does the port exchange HELLOs (R323)? -/
def Body.greeting (b : Body) (p : Nat) : Bool := isTorus p && b.linkState p == 1 && (b.port p).locked

/-- HELLO_SEND (R322, R323). -/
def helloSend (p : Nat) (e : Env) (b : Body) : Body :=
  if b.greeting p then control e p 1 [(12, leBytes b.coord 2), (14, leBytes (b2n (b.port p).llrEn + 2 * b2n (b.direct p)) 1)] b
  else b

/-- HELLO_SEND. -/
def execHelloSend (port : Nat) (s : State) : Host.Outcome State Fault Refusal := bodyStep (helloSend port) s

/-- A control frame of a reserved TYPE is dropped and counted (R322). -/
def reservedType (p : Nat) (b : Body) : Body :=
  if isTorus p && ((b.port p).locked || b.carries p) then rxDrop p 48 16 b else b

/-- HELLO (R322, R323, R331): a control frame that says who the partner is. The row also stands for a frame whose TYPE is
reserved; one whose TYPE has a row of its own is not this row's. -/
def hello (p : Nat) (typ : BitVec 8) (mac : BitVec 48) (serial : Word64) (coord : BitVec 16) (llr dir : Bool) (e : Env)
    (b : Body) : Body :=
  if typ = 0 || 9 < typ then reservedType p b
  else if typ != 1 || !b.greeting p then b
  else if serial = e.fuse.serial then linkFault e p 2 b
  else if coord.toNat != b.neighbour p then linkFault e p 3 b
  else
    let b := (b.setCsr (oFb p 0x18) serial.toNat).modPort p fun q => { q with mac := mac }
    let b := b.setField (oFb p 0x10) 3 1 (b2n (llr && dir && (b.port p).llrEn && b.direct p))
    backUp e p b

/-- HELLO. -/
def execHello (port : Nat) (serial : Word64) (coord : BitVec 16) (llrEn direct : Bool) (s : State)
    (typ : BitVec 8 := 1) (mac : BitVec 48 := 0) : Host.Outcome State Fault Refusal := linkStep (hello port typ mac serial coord llrEn direct) s

/-- HELLO_TIMEOUT (R323). -/
def helloTimeout (p : Nat) (e : Env) (b : Body) : Body := if b.greeting p then linkFault e p 1 b else b

/-- HELLO_TIMEOUT. -/
def execHelloTimeout (port : Nat) (s : State) : Host.Outcome State Fault Refusal := linkStep (helloTimeout port) s

/-- Is a torus link UP? -/
def Body.up (b : Body) (p : Nat) : Bool := isTorus p && b.linkState p == 2

/-- KEEPALIVE_SEND (R322, R324). -/
def keepaliveSend (p : Nat) (e : Env) (b : Body) : Body :=
  if b.up p then
    control e p 2 [(12, leBytes b.coord 2), (16, leBytes (b.field oMpEpoch 0 32) 4), (24, leBytes (b.csr (oMpDigest 0)) 8)] b
  else b

/-- KEEPALIVE_SEND. -/
def execKeepaliveSend (port : Nat) (s : State) : Host.Outcome State Fault Refusal :=
  bodyStep (keepaliveSend port) s

/-- MISMATCH bit of a port set, with its event and interrupt (R460). -/
def mismatch (p : Nat) (b : Body) : Body :=
  if b.flag oMpCfgchk p then b else ((b.setField oMpCfgchk p 1 1).setField oMpCfgchk 24 1 1).raisePf 1

/-- KEEPALIVE (R324, R460). -/
def keepalive (p : Nat) (epoch : BitVec 32) (digest : Word64) (b : Body) : Body :=
  if !isTorus p || !b.carries p then b
  else
    let b := b.setField (oFb p 0x10) 28 1 0
    if b.flag oMpStat 10 then b
    else if epoch.toNat != b.field oMpEpoch 0 32 then
      let since := ((b.port p).skewTick).getD b.dev.ticks
      let b := (b.modPort p fun q => { q with kaDiff := 0, skewTick := some since }).setField oMpCfgchk (8 + p) 1 1
      if since + 100000000 ≤ b.dev.ticks then mismatch p b else b
    else if digest.toNat = b.csr (oMpDigest 0) then
      ((b.modPort p fun q => { q with kaDiff := 0, skewTick := none }).setField oMpCfgchk (8 + p) 1 0).setField oMpCfgchk p 1 0
    else
      let b := b.modPort p fun q => { q with kaDiff := q.kaDiff + 1, skewTick := none }
      if 3 ≤ (b.port p).kaDiff then mismatch p b else b

/-- KEEPALIVE. -/
def execKeepalive (port : Nat) (epoch : BitVec 32) (digest : Word64) (s : State) : Host.Outcome State Fault Refusal :=
  bodyStep (fun _ b => keepalive port epoch digest b) s

/-- KEEPALIVE_TIMEOUT (R324). -/
def keepaliveTimeout (p : Nat) (e : Env) (b : Body) : Body :=
  if b.up p then retrain e p (b.setField (oFb p 0x10) 28 1 1) else b

/-- KEEPALIVE_TIMEOUT. -/
def execKeepaliveTimeout (port : Nat) (s : State) : Host.Outcome State Fault Refusal := linkStep (keepaliveTimeout port) s

/-- LANE_BAD (R325, R326): marked until the next retrain; an active lane asks for a new width where DOWNSHIFT_EN allows. -/
def laneBad (p lane : Nat) (e : Env) (b : Body) : Body :=
  if !b.direct p || 8 ≤ lane || !b.carries p then b
  else
    let inj := injected b (detOf 9 p) lane == some 3
    let b := recordErr e { kind := 8, sev := 0, inj := inj, det := detOf 9 p, unit := lane, addr := lane }
      (if inj then useInjection b else b)
    let b := showGood p (b.modPort p fun q => { q with bad := q.bad ||| BitVec.ofNat 8 (2 ^ lane) })
    if b.linkState p = 2 && b.flag (oFb p 0) 3 && bitOf (b.field (oFb p 0x10) 8 8) lane then sendWidthReq e p b else b

/-- LANE_BAD. -/
def execLaneBad (port lane : Nat) (s : State) : Host.Outcome State Fault Refusal := bodyStep (laneBad port lane) s

/-- A request of the partner that must wait (R328): while this end trains by its own request, the two are one. -/
def holdReq (p : Nat) (r : LinkReq) (mask : BitVec 8) (b : Body) : Body :=
  if (b.port p).req = .retrain then b else b.modPort p fun q => { q with held := q.held ++ [(r, mask)] }

/-- WIDTH_REQ (R327, R328). -/
def widthReq (p : Nat) (mask : BitVec 8) (e : Env) (b : Body) : Body :=
  if !b.direct p then b
  else if b.linkState p = 2 then evalWidthReq e p mask.toNat b
  else if b.linkState p = 1 || b.linkState p = 3 then
    -- a second mask that reaches the leader after its WIDTH_GO is ignored
    if b.linkState p = 3 && (b.port p).goK.isSome && e.fuse.serial.toNat < b.peer p then b else holdReq p .width mask b
  else b

/-- WIDTH_REQ. -/
def execWidthReq (port : Nat) (mask : BitVec 8) (s : State) : Host.Outcome State Fault Refusal := linkStep (widthReq port mask) s

/-- WIDTH_ACK (R327). -/
def widthAck (p : Nat) (mask : BitVec 8) (e : Env) (b : Body) : Body :=
  if b.direct p && b.linkState p = 2 && (b.port p).req = .width then widthGoFrom e p mask.toNat b else b

/-- WIDTH_ACK. -/
def execWidthAck (port : Nat) (mask : BitVec 8) (s : State) : Host.Outcome State Fault Refusal := linkStep (widthAck port mask) s

/-- WIDTH_GO (R327). -/
def widthGo (p : Nat) (mask : BitVec 8) (k : BitVec 32) (b : Body) : Body :=
  if b.direct p && b.linkState p = 2 then
    (b.modPort p fun q => { q with req := .none_, goMask := mask, goK := some k, switched := false }).setLink p 3
  else b

/-- WIDTH_GO. -/
def execWidthGo (port : Nat) (mask : BitVec 8) (k : BitVec 32) (s : State) : Host.Outcome State Fault Refusal :=
  bodyStep (fun _ b => widthGo port mask k b) s

/-- Is K of a width change due: under R312, or more than 1 ms away (R327)? -/
def goDue (e : Env) (k : Nat) : Bool := kickDue e.now k || 1000000 < kickDiff e.now k

/-- WIDTH_SWITCH (R327). -/
def widthSwitch (p : Nat) (e : Env) (b : Body) : Body :=
  match (b.port p).goK with
  | some k =>
    if b.direct p && b.linkState p = 3 && !(b.port p).switched && goDue e k.toNat then
      (b.setLanes p (b.port p).goMask.toNat).modPort p fun q => { q with switched := true }
    else b
  | none => b

/-- WIDTH_SWITCH. -/
def execWidthSwitch (port : Nat) (s : State) : Host.Outcome State Fault Refusal := bodyStep (widthSwitch port) s

/-- Does a port wait for both ends to relock (R327)? -/
def Body.relocking (b : Body) (p : Nat) : Bool := b.direct p && b.linkState p == 3 && (b.port p).switched

/-- LINK_RELOCK (R327). -/
def linkRelock (p : Nat) (e : Env) (b : Body) : Body :=
  if b.relocking p then backUp e p (b.setEvent (oFb p 0x10) 30 5) else b

/-- LINK_RELOCK. -/
def execLinkRelock (port : Nat) (s : State) : Host.Outcome State Fault Refusal := linkStep (linkRelock port) s

/-- RELOCK_TIMEOUT (R327): both ends retrain. -/
def relockTimeout (p : Nat) (e : Env) (b : Body) : Body := if b.relocking p then startTraining e p b else b

/-- RELOCK_TIMEOUT. -/
def execRelockTimeout (port : Nat) (s : State) : Host.Outcome State Fault Refusal := linkStep (relockTimeout port) s

/-- RETRAIN_REQ (R328). -/
def retrainReq (p : Nat) (e : Env) (b : Body) : Body :=
  if !isTorus p then b
  else if b.linkState p = 2 then evalRetrainReq e p b
  else if b.linkState p = 1 || b.linkState p = 3 then holdReq p .retrain 0 b
  else b

/-- RETRAIN_REQ. -/
def execRetrainReq (port : Nat) (s : State) : Host.Outcome State Fault Refusal := linkStep (retrainReq port) s

/-- A request of this end made while the port is CHANGING or TRAINING is held; a retrain takes the place of a width change
(R328). -/
def wantLater (p : Nat) (r : LinkReq) (b : Body) : Body :=
  b.modPort p fun q => if q.want = .retrain then q else { q with want := r }

/-- PORT_WIDTH (R326): FB_PORT_CTL.WIDTH. -/
def portWidth (ag : Agent) (p : Nat) (e : Env) (b : Body) : Body :=
  if 10 ≤ p then b
  else guarded e ag (oFb p 8) b
    (if !b.direct p then b
     else if b.linkState p = 2 then sendWidthReq e p b
     else if b.linkState p = 1 || b.linkState p = 3 then wantLater p .width b
     else b)

/-- PORT_WIDTH. -/
def execPortWidth (ag : Agent) (port : Nat) (s : State) : Host.Outcome State Fault Refusal := bodyStep (portWidth ag port) s

/-- PORT_RETRAIN (R329, R353): FB_PORT_CTL.RETRAIN. -/
def portRetrain (ag : Agent) (p : Nat) (e : Env) (b : Body) : Body :=
  if 10 ≤ p then b
  else guarded e ag (oFb p 8) b
    (if !b.flag (oFb p 0) 0 then b
     else if b.linkState p = 1 || b.linkState p = 3 then wantLater p .retrain b
     else retrain e p b)

/-- PORT_RETRAIN. -/
def execPortRetrain (ag : Agent) (port : Nat) (s : State) : Host.Outcome State Fault Refusal := linkStep (portRetrain ag port) s

/-- LINK_DOWN (R328, R330): requests are abandoned, and training starts from DOWN. -/
def linkDown (p : Nat) (e : Env) (b : Body) : Body :=
  if 10 ≤ p || b.linkState p = 0 || b.linkState p = 4 then b
  else showGood p ((leaveUp e p 0 b).modPort p fun q => { q with bad := 0 })

/-- LINK_DOWN. -/
def execLinkDown (port : Nat) (s : State) : Host.Outcome State Fault Refusal := linkStep (linkDown port) s

-- Link retry (R332).

/-- Frames acknowledged up to a link sequence are freed. -/
def freeReplay (p : Nat) (seq : BitVec 16) (b : Body) : Body :=
  b.modPort p fun q => { q with replay := q.replay.filter fun r => 0 ≤ serialDiff r.1.toNat seq.toNat 16 }

/-- LLR_ACK (R332). -/
def llrAck (p : Nat) (seq : BitVec 16) (e : Env) (b : Body) : Body :=
  if isTorus p && b.llr p then drainPort e p (freeReplay p seq b) else b

/-- LLR_ACK. -/
def execLlrAck (port : Nat) (seq : BitVec 16) (s : State) : Host.Outcome State Fault Refusal := bodyStep (llrAck port seq) s

/-- Every outstanding frame is sent again, as far as the port lets it leave (R327, R332). -/
def replayAll (e : Env) (p : Nat) (b : Body) : Body := replayFrom e p (b.port p).replay b

/-- LLR_NAK (R332). -/
def llrNak (p : Nat) (seq : BitVec 16) (e : Env) (b : Body) : Body :=
  if isTorus p && b.llr p then replayAll e p (freeReplay p seq b) else b

/-- LLR_NAK. -/
def execLlrNak (port : Nat) (seq : BitVec 16) (s : State) : Host.Outcome State Fault Refusal := linkStep (llrNak port seq) s

/-- LLR_TIMEOUT (R332). -/
def llrTimeout (p : Nat) (e : Env) (b : Body) : Body :=
  if isTorus p && b.llr p && !(b.port p).replay.isEmpty then replayAll e p b else b

/-- LLR_TIMEOUT. -/
def execLlrTimeout (port : Nat) (s : State) : Host.Outcome State Fault Refusal := linkStep (llrTimeout port) s

-- Transport rows.

/-- ACK (R338). -/
def ackFrame (p : Nat) (f : Frame) (e : Env) (b : Body) : Body :=
  if f.typ = 2 then receive e p f (fun k f b => takeAck e k f b) b else b

/-- ACK. -/
def execAck (port : Nat) (f : Frame) (s : State) : Host.Outcome State Fault Refusal := bodyStep (ackFrame port f) s

/-- ACK_DELAY_EXPIRY (R339). -/
def ackDelay (coord : BitVec 16) (tc : BitVec 2) (e : Env) (b : Body) : Body :=
  let k := flowKey coord.toNat tc.toNat
  if (b.flow k).ackDue then sendAck e k b else b

/-- ACK_DELAY_EXPIRY. -/
def execAckDelayExpiry (coord : BitVec 16) (tc : BitVec 2) (s : State) : Host.Outcome State Fault Refusal :=
  bodyStep (ackDelay coord tc) s

/-- RTO_EXPIRY (R341): a frame that is not held is sent again with RETX, and the timer doubles up to RTO_MAX. -/
def rtoExpiry (coord : BitVec 16) (tc : BitVec 2) (seq : BitVec 32) (e : Env) (b : Body) : Body :=
  let k := flowKey coord.toNat tc.toNat
  match (b.flow k).unacked.find? fun t => t.f.seq == seq && t.held.isNone with
  | none => b
  | some t =>
    let m := b.field (oRtr 0x28) 16 16
    modTx k seq.toNat (fun t => { t with rto := min (2 * t.rto) m, retx := t.retx + 1, fast := false }) (resend e k t b)

/-- RTO_EXPIRY. -/
def execRtoExpiry (coord : BitVec 16) (tc : BitVec 2) (seq : BitVec 32) (s : State) : Host.Outcome State Fault Refusal :=
  bodyStep (rtoExpiry coord tc seq) s

-- Router rows.

/-- FRAME_FORWARD (R346, R348): a frame in transit. -/
def frameForward (p : Nat) (f : Frame) (e : Env) (b : Body) : Body :=
  if f.dst.toNat = b.coord then b else receive e p f (fun _ _ b => b) b

/-- FRAME_FORWARD. `full` lists the outputs, each a (port, TC, class), whose buffer has no space when the frame gets there. -/
def execFrameForward (port : Nat) (f : Frame) (s : State) (full : List (Nat × Nat × Bool) := []) : Host.Outcome State Fault Refusal :=
  bodyStep (fun e b =>
    let e := { e with full := full }
    let waits := (List.range 8).filter fun p => !(b.port p).queue.isEmpty
    frameForward port f e (overList waits (drainPort e) b)) s

/-- FRAME_HOLD_TIMEOUT (R348): the oldest frame that waits at an output that is not changing its width is dropped. -/
def frameHold (p : Nat) (b : Body) : Body :=
  if b.up p && !(b.port p).queue.isEmpty then
    (b.modPort p fun q => { q with queue := q.queue.tail }).bumpSat (oRtr 0x60) 0 32
  else b

/-- FRAME_HOLD_TIMEOUT. -/
def execFrameHoldTimeout (port : Nat) (s : State) : Host.Outcome State Fault Refusal := bodyStep (fun _ b => frameHold port b) s

/-- The dead table replaced; DEAD_COUNT follows (R347, R355). -/
def setDead (l : List (BitVec 16)) (b : Body) : Body :=
  ({ b with dev.fab.dead := l }).setField (oRtr 0x50) 0 32 l.length

/-- A coordinate enters the dead table. -/
def addDead (c : BitVec 16) (b : Body) : Body :=
  if b.dev.fab.dead.contains c then b else setDead (b.dev.fab.dead ++ [c]) b

/-- A coordinate leaves the dead table. -/
def dropDead (c : BitVec 16) (b : Body) : Body := setDead (b.dev.fab.dead.filter (· != c)) b

/-- DEAD_SET (R347). -/
def execDeadSet (ag : Agent) (coord : BitVec 16) (s : State) : Host.Outcome State Fault Refusal :=
  linkStep (fun e b => guarded e ag (oRtr 0x40) b (addDead coord b)) s

/-- DEAD_CLR (R347). -/
def execDeadClr (ag : Agent) (coord : BitVec 16) (s : State) : Host.Outcome State Fault Refusal :=
  bodyStep (fun e b => guarded e ag (oRtr 0x48) b (dropDead coord b)) s

/-- ROUTER_ID_WRITE (R354): FB_COORD, FB_AXIS and FB_INCARN while every torus port is disabled. -/
def routerId (ag : Agent) (off : Nat) (v : Word64) (e : Env) (b : Body) : Body :=
  if off != 0 && off != 8 && off != 0x20 then b
  else guarded e ag (oRtr off) b
    (if (List.range 8).any fun p => b.flag (oFb p 0) 0 then csrError e ag (oRtr off) b
     else plainWrite e ag (oRtr off) v.toNat b)

/-- ROUTER_ID_WRITE. -/
def execRouterIdWrite (ag : Agent) (off : Nat) (v : Word64) (s : State) : Host.Outcome State Fault Refusal :=
  bodyStep (routerId ag off v) s

/-- NEIGHBOUR_SOLICITATION (R350): answered for the port's own address. -/
def solicit (p : Nat) (addr : BitVec 128) (b : Body) : Body :=
  if !(p = 8 || p = 9) || !b.carries p then b
  else if addr.toNat = b.csr (oFb p 0x80) * 2 ^ 64 + b.csr (oFb p 0x88) then b.send (.advert p addr.toNat)
  else rxDrop p 48 16 b

/-- NEIGHBOUR_SOLICITATION. -/
def execNeighbourSolicitation (port : Nat) (addr : BitVec 128) (s : State) : Host.Outcome State Fault Refusal :=
  bodyStep (fun _ b => solicit port addr b) s

end Sys2Proof.Machine
end

