-- ==== Sys2Proof/Machine/Mesh.lean ====
section
/-! DEFINITION. The mesh: requests to memory, holding them for a logical tile, and the site window (R27, R32, R38, R215,
R216). Requests to CSR space are served by the Csr file. -/
namespace Sys2Proof.Machine

/-- What a read returned to its requester, kept under the requester's code. -/
def Body.answer (b : Body) (req : Nat) (v : List Byte) : Body := { b with dev.hi.resp := b.dev.hi.resp.set req v }

/-- Is the requester the host, the MP or the TAP (R216, R276)? -/
def isManager (req : Nat) : Bool := 9 ≤ req

/-- A request waits, at its source or at a site, under the epoch it was issued in (R27, R225). -/
def holdRequest (r : MeshReq) (site : Option Nat) (b : Body) : Body :=
  { b with dev.held := b.dev.held ++ [{ r := r, epoch := b.epoch, site := site }] }

/-- A run of physical bytes cut at bank boundaries, where every region of R37 ends. -/
def bankPieces (pa n : Nat) : List Range :=
  if n = 0 then []
  else (List.range ((pa + n - 1) / 0x10000 - pa / 0x10000 + 1)).map fun i =>
    let lo := max pa ((pa / 0x10000 + i) * 0x10000)
    (lo, min (pa + n) ((pa / 0x10000 + i + 1) * 0x10000) - lo)

/-- The site at which an access to a bank that is WAKING must wait (R216, R225). -/
def wakingSite (b : Body) (x : Range) : Option Nat :=
  match regionOf x.1 with
  | .sram s o =>
    if (b.site s).servesAll 6 [(o, x.2)] && wakingIn (b.site s) (o, x.2) then some s else none
  | _ => none

/-- One piece of a write as its requester meets it: an address error, an ownership error of the host, MP or TAP, or, for
those, an address error where a LOST stack takes nothing (R38, R216, R276). -/
def writePiece (e : Env) (req pa : Nat) (bytes : List Byte) (b : Body) : Body :=
  match memWrite pa bytes b with
  | (.unmapped, b) => addrError e req pa b
  | (.refused s k, b) => if isManager req then ownerError e req s k pa b else b
  | (.poison _, b) => if isManager req then addrError e req pa b else b
  | (.ok _, b) => b

/-- One piece of a read as its requester meets it: the bytes it gets (R38, R216, R276). -/
def readPiece (e : Env) (req pa n : Nat) (b : Body) : List Byte × Body :=
  match memRead e pa n b with
  | (.ok v, b) => (v, b)
  | (.poison v, b) => if isManager req then (ones n, addrError e req pa b) else (v, b)
  | (.unmapped, b) => (ones n, addrError e req pa b)
  | (.refused s k, b) => (ones n, if isManager req then ownerError e req s k pa b else b)

/-- Where a request leaves its requester: a tile's stop, or the I/O die of its PCIe port, the MP and the TAP (R434). -/
def reqStop (r : MeshReq) : Stop := if r.src < 408 then .tile r.src else if r.src < 417 then .west else .east

/-- What a requester meets where a packet of its access was discarded (R276, R435). -/
def meshDropped (e : Env) (r : MeshReq) (pa : Nat) (b : Body) : Body :=
  let b := if isManager r.req then addrError e r.req pa b else b
  if r.write then b else b.answer r.req (ones r.len)

/-- A request that has reached the memory at a physical address: it waits for a bank that is WAKING, else each of its
pieces is served, and the response of a read crosses the mesh (R38, R216, R225, R276, R435). -/
def serveMem (e : Env) (r : MeshReq) (pa : Nat) (b : Body) : Body :=
  let l := bankPieces pa (if r.write then r.bytes.length else r.len)
  match l.findSome? (wakingSite b) with
  | some s => holdRequest r (some s) b
  | none =>
    if r.write then overList l (fun x b => writePiece e r.req x.1 ((r.bytes.drop (x.1 - pa)).take x.2) b) b
    else
      let (v, b) := l.foldl (fun (v, b) x => let (w, b) := readPiece e r.req x.1 x.2 b; (v ++ w, b)) ([], b)
      match stopOf pa with
      | none => b.answer r.req v
      | some z =>
        match meshLost e z (reqStop r) b with
        | (true, b) => meshDropped e r pa b
        | (false, b) => b.answer r.req v

/-- A request sent over the mesh to a physical address (R32, R435). -/
def sendMem (e : Env) (r : MeshReq) (pa : Nat) (b : Body) : Body :=
  match stopOf pa with
  | none => serveMem e r pa b
  | some z =>
    match meshLost e (reqStop r) z b with
    | (true, b) => meshDropped e r pa b
    | (false, b) => serveMem e r pa b

/-- Must a request in a context wait for a logical tile that a call-up has taken from that donor and not yet given back
(R476)? -/
def donorWaits (b : Body) (n : Nat) (ctx : Nat) : Bool :=
  (List.range 8).any fun q =>
    let st := b.field (oSq q 0x28) 0 2
    let base := b.field (oSq q 8) 8 9
    st != 0 && b.field (oSq q 8) 0 3 == ctx && base ≤ n && n < base + b.field (oSq q 8) 17 7 &&
      (2 ≤ st || (b.site (b.siteOf n)).yielded)

/-- A request addressed to a logical tile: held while HOLD is set or a call-up keeps it waiting, else delivered to its site
(R27, R476). -/
def serveTile (e : Env) (r : MeshReq) (n off : Nat) (b : Body) : Body :=
  if 384 ≤ n || 0x20_0000 ≤ off then
    let b := addrError e r.req off b
    if r.write then b else b.answer r.req (ones r.len)
  else if b.holdOf n || donorWaits b n ((b.squadAt r.src).getD 8) then holdRequest r none b
  else sendMem e r (siteBase (b.siteOf n) + off) b

/-- A held request is served again: at the site where it waits, or from its source; what must still wait is held again. -/
def serveHeld (e : Env) (h : HeldReq) (b : Body) : Body :=
  match h.r.dst, h.site with
  | .phys pa, _ => serveMem e h.r pa b
  | .tile _ off, some s => serveMem e h.r (siteBase s + off) b
  | .tile n off, none => serveTile e h.r n off b

/-- Every held request that `p` picks is served again, in queue order (R27). -/
def releaseHeld (e : Env) (p : HeldReq → Bool) (b : Body) : Body :=
  let l := b.dev.held.filter p
  overList l (serveHeld e) { b with dev.held := b.dev.held.filter fun h => !p h }

/-- Does a request wait at its source for logical tile n (R27)? -/
def HeldReq.waitsFor (h : HeldReq) (n : Nat) : Bool :=
  h.site.isNone && match h.r.dst with | .tile m _ => m == n | .phys _ => false

/-- What waited on a bank of the site is tried again: mesh requests, then the core (R225). -/
def wakeWaiters (e : Env) (s : Nat) (b : Body) : Body :=
  let b := releaseHeld e (fun h => h.site == some s) b
  match (b.site s).core.mstall with
  | some ms => if ms.paged then b else retryMem e s b
  | none => b

/-- The CRC checks of a PCIe port that an access of the host meets (R434): a packet found bad is sent again by the link, so
the access goes on. An access is striped over all lanes of the port. -/
def pcieCheck (e : Env) (ag : Agent) (b : Body) : Body :=
  match ag with
  | .host p _ =>
    let u := b.field (oErr 0x18) 16 8
    match check (detOf 10 p) u b with
    | (some _, b) => recordErr e { kind := 8, sev := 0, inj := true, det := detOf 10 p, unit := u } b
    | (none, b) => b
  | _ => b

/-- The mesh stop of an agent: 408 + 9 × port + function for the host, I/O die W for the MP and the TAP (log entry 51). -/
def agentStop : Agent → Nat
  | .host p f => 408 + 9 * p + f
  | .mp | .tap => 408

/-- SITE_WINDOW_ACCESS (R215): an access of the host, the MP or the TAP through a site's window. -/
def siteWindow (e : Env) (ag : Agent) (site off : Nat) (write : Bool) (bytes : List Byte) (len : Nat) (b : Body) : Body :=
  if 408 ≤ site || 0x20_0000 ≤ off then b
  else sendMem e { src := agentStop ag, req := agentReq ag, dst := .phys (siteBase site + off), write := write, bytes := bytes, len := len }
    (siteBase site + off) (pcieCheck e ag b)

/-- SITE_WINDOW_ACCESS. -/
def execSiteWindowAccess (ag : Agent) (site off : Nat) (write : Bool) (bytes : List Byte) (len : Nat) (s : State) :
    Host.Outcome State Fault Refusal := bodyStep (fun e b => siteWindow e ag site off write bytes len b) s

/-- HBM_WINDOW_ACCESS (R486): HI_BAR2p.BASE + offset, untranslated. -/
def hbmWindow (e : Env) (p off : Nat) (write : Bool) (bytes : List Byte) (len : Nat) (b : Body) : Body :=
  if 2 ≤ p || 2 ^ 36 ≤ off || !hostUp b p then b
  else
    let pa := b.field (oHiBar2 p) 30 10 * 2 ^ 30 + off
    sendMem e { src := agentStop (.host p 0), req := 9, dst := .phys pa, write := write, bytes := bytes, len := len } pa
      (pcieCheck e (.host p 0) b)

/-- HBM_WINDOW_ACCESS. -/
def execHbmWindowAccess (p off : Nat) (write : Bool) (bytes : List Byte) (len : Nat) (s : State) :
    Host.Outcome State Fault Refusal := bodyStep (fun e b => hbmWindow e p off write bytes len b) s

end Sys2Proof.Machine
end

