-- ==== Sys2Proof/Machine/Banks.lean ====
section
/-! DEFINITION. Banks: the BANK instruction (R217 to R220), the power states (R225, R226), and the TL_BANK registers
(R221, R230, R232). -/
namespace Sys2Proof.Machine

/-- A power request on a bank (R225): none where the table refuses it. -/
def Bank.request (k : Bank) (tgt : Nat) : Option Bank :=
  match k.pwr, tgt with
  | .on, 1 => some { k with pwr := .retain, target := 1 }
  | .on, 0 => some { k with pwr := .off, target := 0 }
  | .retain, 2 => some { k with pwr := .wakingRetain, target := 2 }
  | .retain, 0 => some { k with pwr := .off, target := 0 }
  | .off, 2 => some { k with pwr := .wakingOff, target := 2 }
  | .off, 1 => none
  | .wakingRetain, 1 => some { k with pwr := .retain, target := 1 }
  | .wakingOff, 1 => some { k with pwr := .off, target := 1 }
  | .wakingRetain, 0 | .wakingOff, 0 => some { k with pwr := .off, target := 0 }
  | _, t => some { k with target := t }

/-- A bank's new state stored; the contents of a bank that goes OFF are lost (R225). -/
def storeBank (s n : Nat) (k : Bank) (b : Body) : Body :=
  let b := if k.pwr == .off then { b with mem := b.mem.clear (siteBase s + n * 0x10000) 0x10000 } else b
  b.modSite s fun t => t.setBank n k

/-- A power request carried out: an abandoned wake refuses what waited on it, so the waiters are tried again. -/
def applyPower (e : Env) (s n tgt : Nat) (b : Body) : Body :=
  match ((b.site s).bank n).request tgt with
  | none => b
  | some k => if ((b.site s).bank n).waking && !k.waking then wakeWaiters e s (storeBank s n k b) else storeBank s n k b

/-- BANK_WAKE_DONE (R225): a WAKING bank is ON and what waited on it goes on. -/
def bankWakeDone (e : Env) (s n : Nat) (b : Body) : Body :=
  let k := (b.site s).bank n
  if 408 ≤ s || 32 ≤ n || !k.waking then b
  else wakeWaiters e s (b.modSite s fun t => t.setBank n { k with pwr := .on })

/-- Is it a code that may own a bank (R214, R217)? -/
def ownerCode (v : Nat) : Bool := 1 ≤ v && v ≤ 6

/-- Is it a code that may be guest (R214)? -/
def guestCode (v : Nat) : Bool := v == 0 || v == 5 || v == 6

/-- The failure of an operation on a named bank (R217): −2 before −3. -/
def bankFail (bad locked : Bool) : Option Int := if bad then some (-2) else if locked then some (-3) else none

/-- BALLOC's choice (R218): the lowest free unlocked bank that is ON, else the lowest in any state. -/
def ballocPick (t : Site) : Option Nat :=
  let free := (List.range 32).filter fun n => (t.bank n).owner == 0 && !(t.bank n).lock
  match free.find? fun n => (t.bank n).isOn with
  | some n => some n
  | none => free.head?

/-- A BANK instruction: `op` gives the result and the body, of the register values and whether the core is at JOB. -/
def bankRow (func site : Nat) (rd rs1 rs2 : RegNo) (op : Nat → Nat → Bool → Body → Int × Body) (e : Env) (b : Body) : Body :=
  coreGo e site (wordR 0x28 rd rs1 rs2 func) {} (fun _ => none) (fun b =>
    let c := (b.site site).core
    let (r, b) := op (c.getX rs1).toNat (c.getX rs2).toNat (!c.priv) b
    .done (b.modSite site fun t => { t with core := t.core.setX rd (BitVec.ofInt 64 r) })) b

/-- An operation on the bank that rs1 names: `bad` beyond a bank number above 31, then the lock at JOB, then the change. -/
def onBank (site n : Nat) (job bad : Bool) (f : Bank → Bank) (b : Body) : Int × Body :=
  let k := (b.site site).bank n
  match bankFail (31 < n || bad) (job && k.lock) with
  | some r => (r, b)
  | none => (0, b.modSite site fun t => t.setBank n (f k))

/-- BALLOC (R217, R218). -/
def execBalloc (site : Nat) (rd rs1 rs2 : RegNo) (s : State) : Host.Outcome State Fault Refusal :=
  bodyStep (fun e b => bankRow 0 site rd rs1 rs2 (fun x y _ b =>
    if !ownerCode x || y != 0 then (-2, b)
    else match ballocPick (b.site site) with
      | none => (-1, b)
      | some n =>
        let k := { (b.site site).bank n with owner := x, guest := 0 }
        (n, b.modSite site fun t => t.setBank n ((k.request 2).getD k))) e b) s

/-- BFREE (R217). -/
def execBfree (site : Nat) (rd rs1 rs2 : RegNo) (s : State) : Host.Outcome State Fault Refusal :=
  bodyStep (bankRow 1 site rd rs1 rs2 fun x y job b =>
    onBank site x job (y != 0) (fun k => { k with owner := 0, guest := 0 }) b) s

/-- BHAND (R217): a guest equal to the new owner becomes 0. -/
def execBhand (site : Nat) (rd rs1 rs2 : RegNo) (s : State) : Host.Outcome State Fault Refusal :=
  bodyStep (bankRow 2 site rd rs1 rs2 fun x y job b =>
    onBank site x job (!ownerCode y) (fun k => { k with owner := y, guest := if k.guest = y then 0 else k.guest }) b) s

/-- BGUEST (R217): the guest differs from the owner. -/
def execBguest (site : Nat) (rd rs1 rs2 : RegNo) (s : State) : Host.Outcome State Fault Refusal :=
  bodyStep (bankRow 3 site rd rs1 rs2 fun x y job b =>
    onBank site x job (!guestCode y || (y != 0 && ((b.site site).bank x).owner == y)) (fun k => { k with guest := y }) b) s

/-- BLOCK (R217, R219): only at TILE_SUPER. -/
def execBlock (site : Nat) (rd rs1 rs2 : RegNo) (s : State) : Host.Outcome State Fault Refusal :=
  bodyStep (bankRow 4 site rd rs1 rs2 fun x y job b =>
    if !(31 < x || 1 < y) && job then (-3, b)
    else onBank site x job (1 < y) (fun k => { k with lock := y == 1 }) b) s

/-- BPWR (R217, R225): a refused transition is −2. -/
def execBpwr (site : Nat) (rd rs1 rs2 : RegNo) (s : State) : Host.Outcome State Fault Refusal :=
  bodyStep (fun e b => bankRow 5 site rd rs1 rs2 (fun x y job b =>
    let k := (b.site site).bank x
    match bankFail (31 < x || 2 < y || (k.request y).isNone) (job && k.lock) with
    | some r => (r, b)
    | none => (0, applyPower e site x y b)) e b) s

/-- TL_BANK_OWN_WRITE (R221, R230): owner, guest and lock of one bank. -/
def bankOwnWrite (ag : Agent) (site : Nat) (v : Nat) (e : Env) (b : Body) : Body :=
  let o := bitsOf v 8 3
  let g := bitsOf v 12 3
  if !mayWrite ag (oTl site 0x200) || o = 7 || !guestCode g || (g != 0 && g == o) || (b.tileOf site).isNone then
    csrError e ag (oTl site 0x200) b
  else b.modSite site fun t =>
    t.setBank (bitsOf v 0 5) { t.bank (bitsOf v 0 5) with owner := o, guest := g, lock := bitOf v 16 }

/-- TL_BANK_OWN_WRITE. -/
def execTlBankOwnWrite (ag : Agent) (site : Nat) (v : Word64) (s : State) : Host.Outcome State Fault Refusal :=
  bodyStep (fun e b => atSite site b (bankOwnWrite ag site v.toNat e b)) s

/-- The banks whose TL_BANK_PWR field a written value changes (R232). -/
def powerChanges (t : Site) (v : Nat) : List Nat := (List.range 32).filter fun n => (t.bank n).target != bitsOf v (2 * n) 2

/-- TL_BANK_PWR_WRITE (R232): R225 for each bank whose field changes; any refused or reserved field changes none. -/
def bankPwrWrite (ag : Agent) (site v : Nat) (e : Env) (b : Body) : Body :=
  let t := b.site site
  let l := powerChanges t v
  if !mayWrite ag (oTl site 0x228) || (b.tileOf site).isNone ||
      (List.range 32).any (fun n => bitsOf v (2 * n) 2 == 3) ||
      l.any (fun n => ((t.bank n).request (bitsOf v (2 * n) 2)).isNone) then
    csrError e ag (oTl site 0x228) b
  else overList l (fun n b => applyPower e site n (bitsOf v (2 * n) 2) b) b

/-- TL_BANK_PWR_WRITE. -/
def execTlBankPwrWrite (ag : Agent) (site : Nat) (v : Word64) (s : State) : Host.Outcome State Fault Refusal :=
  bodyStep (fun e b => atSite site b (bankPwrWrite ag site v.toNat e b)) s

end Sys2Proof.Machine
end

