-- ==== Sys2Proof/Machine/Digest.lean ====
section
/-! DEFINITION. Layer digests (R425 to R428) and the rows that concern them. -/
namespace Sys2Proof.Machine

/-- The keyed hash of a written element (R425). -/
def digHash (key bits fmt tid sub i : Nat) : Nat :=
  philox key (bitsOf bits 0 32) (bitsOf bits 32 32) (bitsOf i 0 32)
    (bitsOf i 32 8 + bitsOf tid 0 16 * 2 ^ 8 + bitsOf fmt 0 4 * 2 ^ 24 + bitsOf sub 0 2 * 2 ^ 28)

/-- An accumulator that covers nothing. -/
def DigAcc.none_ : DigAcc := { live := false, step := 0, sum := 0, count := 0 }

/-- A slot never written. -/
def DigSlot.initial : DigSlot := { cur := DigAcc.none_, prev := DigAcc.none_, stale := false }

/-- A selection slot (R427). -/
def Body.digSlot (b : Body) (n : Nat) : DigSlot := b.dev.tr.dig.get DigSlot.initial n

/-- The valid selection slots that watch a tensor id and sub (R426). -/
def digSlots (b : Body) (tid sub : Nat) : List Nat :=
  (List.range 64).filter fun n =>
    let w := b.csr (oDg (0x1000 + 16 * n))
    bitOf w 16 && bitsOf w 0 16 == tid && bitsOf w 20 2 == sub

/-- Is an element index in the range of a slot (R430)? -/
def digInRange (b : Body) (n i : Nat) : Bool :=
  let w := b.csr (oDg (0x1008 + 16 * n))
  bitsOf w 0 40 ≤ i && i < bitsOf w 0 40 + 2 ^ bitsOf w 40 6

/-- The digest record of an accumulator (R428), VALID set. -/
def digRecord (b : Body) (n : Nat) (a : DigAcc) (flushed stale : Bool) : Nat :=
  let w := b.csr (oDg (0x1000 + 16 * n))
  bitsOf a.step 0 48 + bitsOf w 0 16 * 2 ^ 48 + n % 64 * 2 ^ 64 + bitsOf w 20 2 * 2 ^ 70 + b2n flushed * 2 ^ 72 +
    b2n stale * 2 ^ 73 + a.count % 2 ^ 40 * 2 ^ 128 + a.sum % 2 ^ 128 * 2 ^ 256 + 2 ^ 511

/-- One accumulator of a slot emitted into the buffer, where it is open (R427). -/
def digEmit (n : Nat) (a : DigAcc) (flushed : Bool) (b : Body) : Body :=
  if a.live then
    let s := b.digSlot n
    let b := { b with dev.tr.digBuf := b.dev.tr.digBuf ++ [digRecord b n a flushed s.stale] }
    { b with dev.tr.dig := b.dev.tr.dig.set n { b.digSlot n with stale := false } }
  else b

/-- Both accumulators of a slot emitted, the earlier step first, and closed (R427, R430). -/
def digFlushSlot (n : Nat) (b : Body) : Body :=
  let s := b.digSlot n
  let b := digEmit n s.cur true (digEmit n s.prev true b)
  { b with dev.tr.dig := b.dev.tr.dig.set n DigSlot.initial }

/-- A hash added to an accumulator. -/
def DigAcc.add (a : DigAcc) (step h : Nat) : DigAcc :=
  { live := true, step := step, sum := (a.sum + h) % 2 ^ 128, count := a.count + 1 }

/-- A digested write with STEP `s'` and hash `h` meets a slot (R427). -/
def digAdd (n s' h : Nat) (b : Body) : Body :=
  let put := fun (t : DigSlot) (b : Body) => { b with dev.tr.dig := b.dev.tr.dig.set n t }
  let t := b.digSlot n
  if !t.cur.live then put { t with cur := DigAcc.none_.add s' h } b
  else if s' = t.cur.step then put { t with cur := t.cur.add s' h } b
  else if s' + 1 = t.cur.step then put { t with prev := t.prev.add s' h } b
  else if s' < t.cur.step then (put { t with stale := true } b).bumpSat (oDg 0x10) 1 31
  else
    let b := digEmit n t.prev false b
    if s' = t.cur.step + 1 then
      put { (b.digSlot n) with prev := t.cur, cur := DigAcc.none_.add s' h } b
    else
      let b := digEmit n t.cur false b
      put { (b.digSlot n) with prev := DigAcc.none_, cur := DigAcc.none_.add s' h } b

/-- An element write of a tensor, digested by the slots found for it (R426). -/
def digElem (slots : List Nat) (tid sub fmt step i bits : Nat) (b : Body) : Body :=
  overList slots (fun n b =>
    if digInRange b n i then digAdd n step (digHash (b.csr (oDg 0x18)) bits fmt tid sub i) b else b) b

/-- Is some index of a run in the range of a slot? -/
def digMeets (b : Body) (n first count : Nat) : Bool :=
  let w := b.csr (oDg (0x1008 + 16 * n))
  0 < count && first < bitsOf w 0 40 + 2 ^ bitsOf w 40 6 && bitsOf w 0 40 < first + count

/-- Is the record buffer full (R427)? Records that one row emits beyond its 64 stand behind it, as the writes would that emit
them, and every later selected write waits until they have left too (log entry 69). -/
def digFull (b : Body) : Bool := 64 ≤ b.dev.tr.digBuf.length

/-- Must a row wait, because the record buffer is full and a slot selects one of its writes (R427)? A run of writes is given by
its tensor id, its sub, and the first index and the number of its elements. -/
def digWaits (b : Body) (runs : List (Nat × Nat × Nat × Nat)) : Bool :=
  digFull b && runs.any fun (t, u, i, c) => (digSlots b t u).any fun n => digMeets b n i c

/-- The squad whose context holds the digest and capture rings, as TR_CFG.SQUAD names it. -/
def trSquad (b : Body) : Nat := b.field (oTr 0x30) 0 3

/-- A TR_STAT event: vector 6 of the function that squad TR_CFG.SQUAD names (R411, R494). -/
def trEvent (bit : Nat) (b : Body) : Body :=
  if b.flag (oTr 0x40) bit then b else (b.setField (oTr 0x40) bit 1 1).raiseSquad (trSquad b) 6

/-- DIGEST_FLUSH (R427): every open accumulator is emitted with FLUSHED. -/
def digestFlush (e : Env) (ag : Agent) (b : Body) : Body :=
  guarded e ag (oDg 8) b (overList (List.range 64) digFlushSlot b)

/-- DIGEST_RECORD_WRITE (R428): the oldest buffered record goes to the next ring slot while that slot is free. -/
def digestRecordWrite (e : Env) (b : Body) : Body :=
  match b.dev.tr.digBuf with
  | [] => b
  | r :: rest =>
    let w := b.csr (oDg 0x20)
    let va := bitsOf w 6 42 * 64 + 64 * (b.dev.tr.digHead % 2 ^ bitsOf w 60 4)
    match vaRead e (trSquad b) whoDigest va 64 b with
    | (.ok old, b) =>
      if bitOf (ofBytes old) 511 then b
      else match vaWrite e (trSquad b) whoDigest va (leBytes r 64) b with
        | (.ok _, b) => { b with dev.tr.digBuf := rest, dev.tr.digHead := b.dev.tr.digHead + 1 }
        | (_, b) => b
    | (_, b) => b

/-- The selection slots that a write of DG_KEY, DG_SELn or DG_RANGEn affects (R430). -/
def digAffected (o : Nat) : List Nat :=
  if o = oDg 0x18 then List.range 64
  else if oDg 0x1000 ≤ o && o < oDg 0x1400 then [(o - oDg 0x1000) / 16] else []

/-- DG_SELECT_WRITE (R430): the affected accumulators are emitted as though by FLUSH, then the write takes effect. -/
def dgSelectWrite (e : Env) (ag : Agent) (o v : Nat) (b : Body) : Body :=
  if digAffected o = [] then b
  else if !mayWrite ag o then csrError e ag o b
  else match regSpec o with
    | none => b
    | some r =>
      if !encodingOk o (r.apply (b.csr o) v) then csrError e ag o b
      else plainWrite e ag o v (overList (digAffected o) digFlushSlot b)

/-- DIGEST_FLUSH. -/
def execDigestFlush (ag : Agent) (s : State) : Host.Outcome State Fault Refusal :=
  bodyStep (fun e b => digestFlush e ag b) s

/-- DIGEST_RECORD_WRITE. -/
def execDigestRecordWrite (s : State) : Host.Outcome State Fault Refusal := bodyStep digestRecordWrite s

/-- DG_SELECT_WRITE. -/
def execDgSelectWrite (ag : Agent) (off : Nat) (v : Word64) (s : State) : Host.Outcome State Fault Refusal :=
  bodyStep (fun e b => dgSelectWrite e ag off v.toNat b) s

end Sys2Proof.Machine
end

