-- ==== Sys2Proof/Machine/MxOps.lean ====
section
/-! DEFINITION. The matrix engine's accumulator store (R91, R92, R111, R122), its launch checks (R72 to R78, R96, R101,
R102, R115 to R118, R511 to R513) and its arithmetic (R82 to R89, R119 to R121). -/
namespace Sys2Proof.Machine

-- Status codes (R104).
def mxOk : Nat := 0x00
def mxFormat : Nat := 0x01
def mxShape : Nat := 0x02
def mxScale : Nat := 0x03
def mxCounter : Nat := 0x04
def mxGroup : Nat := 0x05
def mxBank : Nat := 0x06
def mxCollide : Nat := 0x07
def mxEncoding : Nat := 0x08
def mxFillBad : Nat := 0x09
def mxFlushed : Nat := 0x0A
def mxAccUe : Nat := 0x0B

-- Fields of a matrix instruction (R71, R72).

/-- FUNC. -/
def QEntry.mxFunc (q : QEntry) : Nat := bitsOf q.word.toNat 22 4
/-- G. -/
def QEntry.mxG (q : QEntry) : Nat := bitsOf q.word.toNat 19 3
/-- CC of a matrix or vector instruction. -/
def QEntry.mxCc (q : QEntry) : Nat := bitsOf q.word.toNat 5 4
/-- ACLASS. -/
def QEntry.mxClass (q : QEntry) : Nat := bitsOf q.word.toNat 9 2
/-- DUALG. -/
def QEntry.mxDual (q : QEntry) : Bool := bitOf q.word.toNat 11
/-- Source group H of MX.FOLD. -/
def QEntry.mxH (q : QEntry) : Nat := bitsOf q.word.toNat 9 3

/-- Reserved or malformed encodings (R72, R100, R104). -/
def mxEncodingOk (q : QEntry) : Bool :=
  let w := q.word.toNat
  let rs1 := bitsOf w 14 5
  let rs2 := bitsOf w 9 5
  bitsOf w 0 3 == 0 &&
  match q.mxFunc with
  | 0 => bitsOf w 12 2 == 0 && q.mxClass != 3
  | 1 => true
  | 2 => rs1 == 0 && rs2 == 0
  | 3 => rs1 == 0 && bitsOf w 12 2 == 0 && bitsOf w 3 2 == 0
  | 4 => rs2 == 0
  | 5 => rs1 == 0 && rs2 == 0
  | 6 | 7 => rs2 == 0 && q.mxG == 0
  | _ => false

-- Slots and groups (R91, R111, R122).

/-- Slots of one half of a group (R91). -/
def halfSlots (cls : Nat) (dual : Bool) : Nat := (if cls = 1 then 2 else 1) * (if dual then 2 else 1)

/-- Is G valid for a class in a mode (R91)? -/
def groupValid (shadow : Bool) (cls : Nat) (dual : Bool) (g : Nat) : Bool :=
  let n := halfSlots cls dual
  if shadow then n ≤ 2 && g < 4 && g % n == 0 else g < 8 && g % n == 0

/-- The first slot of the half of group G that `phase` names (R91, R122). -/
def firstSlot (shadow : Bool) (cls : Nat) (dual : Bool) (g : Nat) (phase : Bool) : Nat :=
  if shadow then 2 * g + (if phase then halfSlots cls dual else 0) else g

/-- The slots of that half. -/
def slotsOf (shadow : Bool) (cls : Nat) (dual : Bool) (g : Nat) (phase : Bool) : List Nat :=
  (List.range (halfSlots cls dual)).map (· + firstSlot shadow cls dual g phase)

/-- Group G, if it is open. -/
def MxSt.group (x : MxSt) (g : Nat) : Option Group := x.groups.get none g

/-- PHASE of group G. -/
def MxSt.phaseOf (x : MxSt) (g : Nat) : Bool := x.phase.get false g

/-- First slot of the live half of an open group. -/
def MxSt.live (x : MxSt) (g : Nat) (k : Group) : Nat := firstSlot x.accmode k.cls k.dual g (x.phaseOf g)

/-- The slots of a draining shadow (R99). -/
def Drain.slots (d : Drain) : List Nat := (List.range (halfSlots d.grp.cls d.grp.dual)).map (· + d.half)

/-- The slots that open groups' live regions and draining shadows use (R91). -/
def MxSt.usedSlots (x : MxSt) : List Nat :=
  (List.range 8).flatMap (fun g => match x.group g with
    | some k => slotsOf x.accmode k.cls k.dual g (x.phaseOf g)
    | none => []) ++ x.drains.flatMap Drain.slots

/-- STATE of a slot (R111). -/
def MxSt.slotState (x : MxSt) (s : Nat) : Nat :=
  if (List.range 8).any (fun g => match x.group g with | some k => x.live g k == s | none => false) then 1
  else if x.usedSlots.contains s then 2 else 0

/-- MX_GROUP (R111). -/
def MxSt.groupWord (x : MxSt) : Nat :=
  foldN 8 (fun s w =>
    let sh := x.accmode && s % 2 == 0
    w + (x.slotState s + b2n (sh && x.drains.any (·.g == s / 2)) * 4 + b2n (sh && x.phaseOf (s / 2)) * 8) * 16 ^ s) 0

/-- Every slot is FREE (R94). -/
def MxSt.allFree (x : MxSt) : Bool := x.usedSlots.isEmpty

/-- A group closed or opened. -/
def MxSt.setGroup (x : MxSt) (g : Nat) (k : Option Group) : MxSt := { x with groups := x.groups.set g k }

/-- Every group freed (R102, R103, R105). -/
def MxSt.freeAll (x : MxSt) : MxSt := { x with groups := [] }

/-- The captured output descriptor of a group. -/
def Group.out (k : Group) : TDesc := TDesc.ofNat k.desc

/-- Bytes of an element of a class (R92). -/
def clsBytes (cls : Nat) : Nat := if cls = 1 then 8 else 4

/-- Format code of a class: FP32, FP64 or INT32 (R72). -/
def clsFmt (cls : Nat) : Nat := match cls with | 0 => 1 | 1 => 0 | _ => 9

/-- Where element (i, j) of a half sits in the store, from its first slot (R92). -/
def accAddr (cls slot i j : Nat) : Nat := slot * 0x10000 + (i * 128 + j) * clsBytes cls

/-- Slots from the value half to the tangent half of a dual group (R122). -/
def tanSlots (cls : Nat) : Nat := if cls = 1 then 2 else 1

/-- The slots of a region cleared, as lazy zeroing shows them (R95). -/
def zeroSlots (acc : Mem) (l : List Nat) : Mem := l.foldl (fun m s => m.clear (s * 0x10000) 0x10000) acc

/-- The poison value of a class (R79). -/
def poisonOf (cls : Nat) : Nat := match cls with | 0 => canonNan 1 | 1 => canonNan 0 | _ => 0x8000_0000

/-- Every element of a region set to the poison value, both halves (R79, R106, R124). -/
def poisonRegion (k : Group) (s : Nat) (acc : Mem) : Mem :=
  let t := k.out
  let fill := fun slot acc => foldN t.rows (fun i acc => foldN t.cols (fun j (acc : Mem) =>
    acc.setNum (accAddr k.cls slot i j) (clsBytes k.cls) (poisonOf k.cls)) acc) acc
  let acc := fill s acc
  if k.dual then fill (s + tanSlots k.cls) acc else acc

/-- The same for an open group. -/
def poisonGroup (x : MxSt) (g : Nat) : MxSt :=
  match x.group g with
  | none => x
  | some k => { x with acc := poisonRegion k (x.live g k) x.acc }

/-- The words of the store that hold the elements of one half of a region, by address. -/
def halfWords (k : Group) (slot : Nat) : List Nat :=
  (List.range k.out.rows).flatMap fun i => rangeWords (accAddr k.cls slot i 0, k.out.cols * clsBytes k.cls)

/-- The words of a region, the tangent's too where `tan` (R92, R122). -/
def regionWords (k : Group) (slot : Nat) (tan : Bool) : List Nat :=
  halfWords k slot ++ if tan then halfWords k (slot + tanSlots k.cls) else []

/-- The open groups whose regions hold one of the words, poisoned (R106). -/
def poisonHit (bad : List Nat) (x : MxSt) : MxSt :=
  (List.range 8).foldl (fun x g => match x.group g with
    | some k =>
      if bad.any fun w => (slotsOf x.accmode k.cls k.dual g (x.phaseOf g)).contains (w / 0x10000) then poisonGroup x g else x
    | none => x) x

-- Launch checks.

/-- Output formats allowed to a class (R96). -/
def outFormatOk (cls fmt : Nat) : Bool :=
  if cls = 2 then fmt ≤ 3 || (9 ≤ fmt && fmt ≤ 12) else fmt ≤ 8

/-- The group class of a dual descriptor's pair (R115). -/
def pairClass (t : TDesc) : Nat := if t.fmt = 0 then 1 else 0

/-- The checks of an output descriptor that R513 makes, but for the banks. -/
def outStatus (t : TDesc) (cls : Nat) (dual : Bool) : Nat :=
  if !outFormatOk cls t.fmt || !t.dualOk || (dual && (cls = 2 || !t.dual || pairClass t != cls)) then mxFormat
  else if !(1 ≤ t.rows && t.rows ≤ 128 && 1 ≤ t.cols && t.cols ≤ 128 && t.shapeOk && t.tstrideOk &&
      t.cols % blockSize t.scale == 0 && t.colOrg % blockSize t.scale == 0) then mxShape
  else if !t.scaleOk then mxScale
  else if !t.indexOk then mxCounter
  else mxOk

/-- The bytes that a drain writes; the tangent slice only from a dual group. -/
def outRanges (t : TDesc) (dual : Bool) : List Range := t.dataRanges ++ t.scaleRanges ++ (if dual then t.tangentRanges else [])

/-- Class and K_CHUNK of a pairing (R77). -/
def mmaKind (a b : Nat) : Option (Nat × Nat) :=
  let fp4 := fun c => c == 8
  let fp8 := fun c => 4 ≤ c && c ≤ 8
  let fp16 := fun c => 2 ≤ c && c ≤ 8
  if fp4 a && fp4 b then some (0, 64)
  else if fp8 a && fp8 b then some (0, 32)
  else if fp16 a && fp16 b then some (0, 16)
  else if a == 1 && b == 1 then some (0, 8)
  else if a == 0 && b == 0 then some (1, 4)
  else if a == 12 && b == 12 then some (2, 64)
  else if (a == 11 || a == 12) && (b == 11 || b == 12) then some (2, 32)
  else none

/-- The checks of MX.MMA's operands against its group (R69, R76, R77, R115, R118), but for the banks. -/
def mmaStatus (a b : TDesc) (k : Group) : Nat :=
  let o := k.out
  match mmaKind a.fmt b.fmt with
  | none => mxFormat
  | some (cls, kc) =>
    if !a.dualOk || !b.dualOk || cls != k.cls || ((a.dual || b.dual) && !k.dual) then mxFormat
    else if !(a.rows == o.rows && b.rows == o.cols && a.cols == b.cols && 1 ≤ a.cols && a.colOrg == b.colOrg &&
        a.colOrg % kc == 0 && a.colOrg % blockSize a.scale == 0 && a.colOrg % blockSize b.scale == 0 &&
        a.shapeOk && b.shapeOk && a.tstrideOk && b.tstrideOk) then mxShape
    else if !(a.scaleOk && b.scaleOk) then mxScale
    else if !o.indexOk || 2 ^ 20 ≤ (a.colOrg + a.cols - 1) / kc / 8 then mxCounter
    else mxOk

/-- Sources that MX.LOADACC accepts for a class (R101). -/
def loadaccFormatOk (cls fmt : Nat) : Bool :=
  match cls with
  | 0 => 1 ≤ fmt && fmt ≤ 3
  | 1 => fmt ≤ 1
  | _ => 9 ≤ fmt && fmt ≤ 11

/-- The checks of MX.LOADACC (R101, R124), but for the banks. R124 speaks of dual groups only: into any other group the model
loads the values of a dual source and reads none of its tangents, whose banks the launch check still covers (log entry 19). -/
def loadaccStatus (t : TDesc) (k : Group) : Nat :=
  let o := k.out
  if !loadaccFormatOk k.cls t.fmt || !t.dualOk then mxFormat
  else if !(t.rows == o.rows && t.cols == o.cols && t.shapeOk && t.tstrideOk) then mxShape
  else if !t.scaleOk then mxScale
  else mxOk

/-- The bytes of the accumulator image (R102). -/
def mxImageBytes : Nat := 525312

/-- Class byte of the open group whose first slot is `s`, and its descriptor (R102). -/
def slotGroup (x : MxSt) (s : Nat) : Nat × Nat :=
  match (List.range 8).find? fun g => match x.group g with | some k => x.live g k == s | none => false with
  | some g => match x.group g with
    | some k => (k.cls + 4 * b2n k.dual, k.desc)
    | none => (0, 0)
  | none => (0, 0)

/-- The header of the image, CHECK still zero (R102). -/
def mxHeader (x : MxSt) : Mem :=
  let m := Mem.setNum [] 0 4 0x4D58_0001
  let m := (m.setNum 4 1 (b2n x.accmode)).setNum 8 8 x.groupWord
  foldN 8 (fun s m => (m.setNum (16 + s) 1 (slotGroup x s).1).setNum (64 + 64 * s) 64 (slotGroup x s).2) m

/-- The whole image as sparse bytes from 0, CHECK in place (R102). -/
def mxImage (x : MxSt) : Mem :=
  let m := mxHeader x ++ x.acc.map fun c => (c.1 + 1024, c.2)
  m.setNum 1016 8 ((2 ^ 64 - wordSum m) % 2 ^ 64)

/-- The group that an image's OPEN slot `s` stands for: its number and phase (R91, R111). -/
def imageGroup (shadow : Bool) (cls : Nat) (dual : Bool) (s : Nat) : Nat × Bool :=
  if shadow then
    let n := halfSlots cls dual
    (s / (2 * n) * n, s / n % 2 == 1)
  else (s, false)

/-- The engine that an image describes (R102): its groups and phases, the store and the mode left as they are. -/
def imageState (img : Mem) (x : MxSt) : MxSt :=
  let w := img.num 8 8
  let x := { x with groups := [], phase := [] }
  let x := foldN 4 (fun g x => if bitOf w (8 * g + 3) then { x with phase := x.phase.set g true } else x) x
  foldN 8 (fun s x =>
    if bitsOf w (4 * s) 2 = 1 then
      let cb := img.num (16 + s) 1
      let (g, _) := imageGroup x.accmode (cb % 4) (bitOf cb 2) s
      x.setGroup g (some { cls := cb % 4, dual := bitOf cb 2, desc := img.num (64 + 64 * s) 64 })
    else x) x

/-- The validation of an image by MX.FILL (R102). -/
def imageOk (img : Mem) (x : MxSt) : Bool :=
  let w := img.num 8 8
  let y := imageState img x
  let zero := fun a n => img.all fun c => c.1 < a || a + n ≤ c.1
  x.allFree && img.num 0 4 == 0x4D58_0001 && img.num 4 1 == b2n x.accmode && zero 5 3 && zero 24 40 && zero 576 440 &&
  w / 2 ^ 32 == 0 && y.groupWord == w &&
  (List.range 8).all (fun s =>
    let cb := img.num (16 + s) 1
    let d := img.num (64 + 64 * s) 64
    if bitsOf w (4 * s) 2 = 1 then
      let cls := cb % 4
      let dual := bitOf cb 2
      let (g, ph) := imageGroup x.accmode cls dual s
      cb < 8 && cls != 3 && !(cls == 2 && dual) && groupValid x.accmode cls dual g &&
        firstSlot x.accmode cls dual g ph == s && (!x.accmode || y.phaseOf g == ph) && outStatus (TDesc.ofNat d) cls dual == mxOk
    else cb == 0 && d == 0) &&
  y.usedSlots.length == (y.usedSlots.eraseDups).length && wordSum img == 0

/-- The addresses of the descriptors that an instruction reads. -/
def mxDescs (q : QEntry) : List Nat :=
  match q.mxFunc with
  | 0 | 4 => [q.a.toNat]
  | 1 => [q.a.toNat, q.b.toNat]
  | _ => []

/-- The address that an image instruction names. -/
def mxImageAddr (q : QEntry) : List Nat := match q.mxFunc with | 6 | 7 => [q.a.toNat] | _ => []

/-- The group-state conditions (R91, R95, R124). -/
def mxStateOk (x : MxSt) (q : QEntry) : Bool :=
  match q.mxFunc with
  | 0 =>
    let cls := q.mxClass
    (x.group q.mxG).isNone && ((cls == 2 && q.mxDual) || (groupValid x.accmode cls q.mxDual q.mxG &&
      (slotsOf x.accmode cls q.mxDual q.mxG (x.phaseOf q.mxG)).all fun s => !x.usedSlots.contains s))
  | 1 | 2 | 4 => (x.group q.mxG).isSome
  | 3 => match x.group q.mxG, x.group q.mxH with
    | some g, some h => q.mxG != q.mxH && g.cls == h.cls && g.dual == h.dual && g.out.rows == h.out.rows && g.out.cols == h.out.cols
    | _, _ => false
  | _ => true

/-- The status with which the launch checks of the head instruction end, `ds` being its descriptors; 0 lets it execute
(R78, R511 to R513). The image of MX.FILL is checked as it is read. -/
def mxStatus (t : Site) (ds : List Nat) (q : QEntry) : Nat :=
  let x := t.mx
  let a := TDesc.ofNat (ds.getD 0 0)
  let b := TDesc.ofNat (ds.getD 1 0)
  let descs := mxDescs q
  let imgs := mxImageAddr q
  if !mxEncodingOk q then mxEncoding
  else if (descs ++ imgs).any (fun a => a % 64 != 0) then mxShape
  else if !t.ownsAll 2 (descs.map fun a => (a, 64)) || !t.ownsAll 2 (imgs.map fun a => (a, mxImageBytes)) then mxBank
  else if !mxStateOk x q then mxGroup
  else
    let own := fun r => if t.ownsAll 2 r then mxOk else mxBank
    let also := fun st r => if st = mxOk then own r else st
    match q.mxFunc with
    | 0 => also (outStatus a q.mxClass q.mxDual) a.ranges
    | 1 => match x.group q.mxG with
      | none => mxGroup
      | some k => also (mmaStatus a b k) (a.ranges ++ b.ranges)
    | 2 => match x.group q.mxG with
      | none => mxGroup
      | some k => own (outRanges k.out k.dual)
    | 4 => match x.group q.mxG with
      | none => mxGroup
      | some k => also (loadaccStatus a k) a.ranges
    | _ => mxOk

-- Arithmetic.

/-- Neighbours added pairwise, each node truncated to `p` bits (R84, R85). -/
def pairUp (p : Nat) : List Num → List Num
  | a :: b :: r => ((Num.add a b).1.trunc p) :: pairUp p r
  | l => l

/-- The balanced tree over 2^d leaves (R84). -/
def treeSum (p : Nat) : Nat → List Num → Num
  | 0, l => l.headD (Num.zero false)
  | d + 1, l => treeSum p d (pairUp p l)

/-- A chunk sum: special values bypass the tree (R86). -/
def chunkSum (p : Nat) (l : List Num) : Num × FFlags :=
  if l.any Num.isNan then (.nan, 0)
  else
    let pos := l.any fun x => x.isInf && !x.neg?
    let neg := l.any fun x => x.isInf && x.neg?
    if pos && neg then (.nan, fInvalid)
    else if pos then (.inf false, 0)
    else if neg then (.inf true, 0)
    else (treeSum p (Nat.log2 l.length) l, 0)

/-- Significand bits of a tree node (R85). -/
def nodeBits (cls : Nat) : Nat := if cls = 1 then 106 else 48

/-- INT32 accumulation, saturating (R89). -/
def intAccum (s : Nat) (v : Int) : Nat × FFlags :=
  let r := sInt 32 s + v
  if r < -(2 ^ 31) then (0x8000_0000, fSat) else if 2 ^ 31 ≤ r then (0x7FFF_FFFF, fSat) else (uBits 32 r, 0)

/-- The integer value of an exact number. -/
def Num.toInt : Num → Int
  | .fin s m e _ => let v : Int := shiftNat m e; if s then -v else v
  | _ => 0

/-- One running-sum update `s ← round(s + v)` (R88, R89). -/
def accumulate (cls s : Nat) (v : Num) (sel : Sel) : Nat × FFlags :=
  if cls = 2 then intAccum s v.toInt
  else
    let (x, f) := readElem (clsFmt cls) s
    let (r, g) := arith (clsFmt cls) (x.isNan || v.isNan) (Num.add x v) sel
    (r, f ||| g)

/-- A product of decoded factors with its flags (R82). -/
def product (a b : Num × FFlags) : Num × FFlags :=
  let (p, bad) := Num.mul a.1 b.1
  (p, a.2 ||| b.2 ||| fIf bad fInvalid)

/-- The products of a chunk of K positions: those at or beyond the slice's end are +0 (R83). -/
def chunkProducts (m : Mem) (base : Nat) (a b : TDesc) (i j k0 w : Nat) : List (Num × FFlags) :=
  (List.range w).map fun p =>
    if k0 + p < a.cols then product (a.elemS m base i (k0 + p)) (b.elemS m base j (k0 + p)) else (Num.zero false, 0)

/-- The tangent leaves of a chunk (R119, R120). -/
def chunkTangents (m : Mem) (base cls : Nat) (a b : TDesc) (i j k0 w : Nat) : List (Num × FFlags) :=
  (List.range w).flatMap fun p =>
    if k0 + p < a.cols then
      let l := product (a.tangent m base i (k0 + p)) (b.elemV m base j (k0 + p))
      let r := product (a.elemV m base i (k0 + p)) (b.tangent m base j (k0 + p))
      [(l.1.trunc (nodeBits cls), l.2), (r.1.trunc (nodeBits cls), r.2)]
    else [(Num.zero false, 0), (Num.zero false, 0)]

/-- The flags of leaves. -/
def leafFlags (l : List (Num × FFlags)) : FFlags := l.foldl (fun f x => f ||| x.2) 0

/-- The element at a place of the store changed by `f`, with its flags collected. -/
def accUpdate (cls addr : Nat) (f : Nat → Nat × FFlags) (acc : Mem × FFlags) : Mem × FFlags :=
  let (v, g) := f (acc.1.num addr (clsBytes cls))
  (acc.1.setNum addr (clsBytes cls) v, acc.2 ||| g)

/-- MX.MMA over the store of a group: chunk by chunk, then element by element (R83 to R90, R119 to R121). -/
def mmaStore (m : Mem) (base : Nat) (a b : TDesc) (k : Group) (slot kc : Nat) (q : QEntry) (acc : Mem × FFlags) :
    Mem × FFlags :=
  let o := k.out
  let key := q.key.toNat
  let dual := k.dual && (a.dual || b.dual)
  let c := (Num.mul (coarseNum a.fmt a.coarse) (coarseNum b.fmt b.coarse)).1
  foldN (cdiv a.cols kc) (fun n acc =>
    let cq := a.colOrg / kc + n
    foldN o.rows (fun i acc => foldN o.cols (fun j acc =>
      let ps := chunkProducts m base a b i j (n * kc) kc
      let (t, f) := if k.cls = 2 then (Num.ofInt ((ps.map fun x => x.1.toInt).sum), 0) else chunkSum (nodeBits k.cls) (ps.map Prod.fst)
      let v := (Num.mul t c).1
      let sel := fun st => chunkSel q.sr key st o.tid (o.index i j) cq o.step
      let acc := accUpdate k.cls (accAddr k.cls slot i j) (fun s => accumulate k.cls s v (sel 0)) (acc.1, acc.2 ||| leafFlags ps ||| f)
      if dual then
        let ls := chunkTangents m base k.cls a b i j (n * kc) kc
        let (t', f') := chunkSum (nodeBits k.cls) (ls.map Prod.fst)
        accUpdate k.cls (accAddr k.cls (slot + tanSlots k.cls) i j) (fun s => accumulate k.cls s t' (sel 4))
          (acc.1, acc.2 ||| leafFlags ls ||| f')
      else acc) acc) acc) acc

/-- Passes of an MMA (R80). -/
def mmaPasses (a : TDesc) (o : TDesc) (kc : Nat) : Nat := cdiv o.rows 16 * cdiv a.cols kc

/-- MX.FOLD over the store: every element of H into G, RNE (R100, R124). -/
def foldStore (k : Group) (g h : Nat) (acc : Mem × FFlags) : Mem × FFlags :=
  let o := k.out
  let one := fun (sg sh : Nat) (acc : Mem × FFlags) =>
    foldN o.rows (fun i acc => foldN o.cols (fun j acc =>
      let hv := acc.1.num (accAddr k.cls sh i j) (clsBytes k.cls)
      accUpdate k.cls (accAddr k.cls sg i j) (fun s =>
        if k.cls = 2 then intAccum s (sInt 32 hv)
        else
          let (y, f) := readElem (clsFmt k.cls) hv
          let (r, e) := accumulate k.cls s y .rne
          (r, f ||| e)) acc) acc) acc
  let acc := one g h acc
  if k.dual then one (g + tanSlots k.cls) (h + tanSlots k.cls) acc else acc

/-- MX.LOADACC over the store (R101, R124). -/
def loadStoreAcc (m : Mem) (base : Nat) (t : TDesc) (k : Group) (slot : Nat) (acc : Mem × FFlags) : Mem × FFlags :=
  let c := clsFmt k.cls
  foldN t.rows (fun i acc => foldN t.cols (fun j acc =>
    let (x, f) := t.elemV m base i j
    let acc := accUpdate k.cls (accAddr k.cls slot i j) (fun _ => let (v, g) := convert c x .rne; (v, f ||| g)) acc
    if k.dual then
      let (y, f) := t.tangent m base i j
      accUpdate k.cls (accAddr k.cls (slot + tanSlots k.cls) i j) (fun _ => let (v, g) := convert c y .rne; (v, f ||| g)) acc
    else acc) acc) acc

/-- A group element as a number. -/
def accElem (acc : Mem) (cls slot i j : Nat) : Num × FFlags :=
  let b := acc.num (accAddr cls slot i j) (clsBytes cls)
  if cls = 2 then (Num.ofInt (sInt 32 b), 0)
  else let (x, f) := readElem (clsFmt cls) b
       (x, f ||| fIf x.isNan fNanIn)

/-- A drain's progress: the body, the flags, whether a bank was lost (R79) and whether a write lost a collision (R224). -/
structure DrainAcc where
  body : Body
  flags : FFlags
  lost : Bool
  hit : Bool

/-- The status that a drain ends with (R79, R104, R224). -/
def DrainAcc.status (d : DrainAcc) : Nat := if d.lost then mxBank else if d.hit then mxCollide else mxOk

/-- A write of a drain (R224). -/
def DrainAcc.write (e : Env) (s : Nat) (r : Range) (m : Mem) (d : DrainAcc) : DrainAcc :=
  let (hit, b) := unitWrite e 2 s r m d.body
  { d with body := b, hit := d.hit || hit }

/-- One element of a drain: value, tangent and, with the last element of a block, the fine scale; each converted once
(R64, R96, R97, R117, R123) and digested (R426). A bank of its bytes handed away ends the drain (R79). -/
def drainElem (e : Env) (s : Nat) (slot : Nat) (k : Group) (q : QEntry) (acc : Mem) (dv dt : List Nat) (i j : Nat) (d : DrainAcc) : DrainAcc :=
  let o := k.out
  let t := d.body.site s
  let w := fmtWidth o.fmt
  let wt := fmtWidth o.tfmt / 8
  let at_ := o.addr + i * o.rstride + j * w / 8
  let tat := o.taddr + i * o.tstride + j * wt
  let vr := (at_, (j * w % 8 + w + 7) / 8)
  let blk := blockSize o.scale
  let sr := (o.saddr + i * (o.cols / blk) + j / blk, 1)
  let last := o.scale != 0 && j % blk == blk - 1
  let own := t.ownsAll 2 ([vr] ++ (if last then [sr] else []) ++ (if k.dual then [(tat, wt)] else []))
  if d.lost || !own then { d with lost := true }
  else
    let j0 := j / blk * blk
    let sb := if o.scale = 0 then 0
      else blockScale o.fmt o.scale o.coarse ((List.range blk).map fun n => (accElem acc k.cls slot i (j0 + n)).1)
    let idx := o.index i j
    let (x, f) := accElem acc k.cls slot i j
    let (v, g) := quantise o.fmt o.scale o.coarse sb x (elemSel q.sr q.key.toNat 1 o.tid idx 0 o.step)
    let d := d.write e s vr (o.putElem d.body.mem (siteBase s) i j v)
    let d := if last then d.write e s sr (o.putScale d.body.mem (siteBase s) i j sb) else d
    let d := { d with body := digElem dv o.tid 0 o.fmt o.step idx v d.body, flags := d.flags ||| f ||| g }
    if k.dual then
      let (y, f') := accElem acc k.cls (slot + tanSlots k.cls) i j
      let (v', g') := convert o.tfmt y (elemSel q.sr q.key.toNat 1 o.tanId idx 0 o.step)
      let d := d.write e s (tat, wt) (o.putTangent d.body.mem (siteBase s) i j v')
      { d with body := digElem dt o.tanId 0 o.tfmt o.step idx v' d.body, flags := d.flags ||| f' ||| g' }
    else d

/-- The first `n` elements of a drain, in the order of R97. -/
def drainElems (e : Env) (s slot : Nat) (k : Group) (q : QEntry) (n : Nat) (b : Body) : DrainAcc :=
  let o := k.out
  let acc := (b.site s).mx.acc
  let dv := digSlots b o.tid 0
  let dt := digSlots b o.tanId 0
  foldN (min n (o.rows * o.cols)) (fun x d => drainElem e s slot k q acc dv dt (x / o.cols) (x % o.cols) d)
    { body := b, flags := 0, lost := false, hit := false }

end Sys2Proof.Machine
end

