-- ==== Sys2Proof/Machine/Mx.lean ====
section
/-! DEFINITION. The matrix engine's rows (R71 to R114, R513). The head of the queue is launched, executed, and completed;
an execution row of another function than the head's does nothing. -/
namespace Sys2Proof.Machine

/-- The engine of a site changed. -/
def Body.modMx (b : Body) (s : Nat) (f : MxSt → MxSt) : Body := b.modSite s fun t => { t with mx := f t.mx }

/-- The flags of an instruction collected in MX_FLAGS (R112). -/
def MxSt.addFlags (x : MxSt) (f : FFlags) : MxSt := { x with eng.flags := x.eng.flags ||| f }

/-- The instruction at the head, which has not ended. -/
def Eng.head (x : Eng) : Option QEntry := if x.halted || x.done.isSome then none else x.q.head?

/-- The head ends with a status; of what it captured nothing is kept. -/
def Eng.ends (x : Eng) (st : Nat) : Eng := { x with done := some st, launched := false, cap := none }

/-- The head leaves the queue. -/
def Eng.pop (x : Eng) : Eng := { x with q := x.q.tail, launched := false, done := none, cap := none }

/-- TB_LATE_COUNT at a launch under several kickoffs (R312, R319). -/
def Body.launchAll (b : Body) (e : Env) (l : List Nat) : Body := if l.any (kickLate e.now) then b.countLate else b

/-- The descriptors of a matrix instruction as ranges. -/
def mxDescRanges (q : QEntry) : List Range := (mxDescs q).map fun a => (a, 64)

/-- Can the engine read the descriptors of its head: well formed, aligned, in its own banks (R78, R511)? -/
def mxReadable (t : Site) (q : QEntry) : Bool :=
  mxEncodingOk q && (mxDescs q).all (fun a => a % 64 == 0) && t.ownsAll 2 (mxDescRanges q)

/-- The descriptors of the head as captured, or as they stand in memory; none where they cannot be read yet. -/
def mxPeek (b : Body) (s : Nat) (q : QEntry) : List Nat :=
  let t := b.site s
  t.mx.eng.cap.getD (if mxReadable t q && !t.wakingAny (mxDescRanges q) then (mxDescs q).map (descAt b.mem s) else [])

/-- The kickoffs that tensor descriptors carry (R74). -/
def kickoffsOf (ds : List Nat) : List Nat :=
  ds.filterMap fun d => let t := TDesc.ofNat d; if t.koen then some t.kickoff else none

/-- MX_STAT.KWAIT: the head waits on a kickoff (R74, R110). -/
def mxKwait (e : Env) (b : Body) (s : Nat) : Bool :=
  let x := (b.site s).mx.eng
  match x.head with
  | none => false
  | some q => !x.launched && !(kickoffsOf (mxPeek b s q)).all (kickDue e.now)

/-- The descriptors of the head, read once, when it reaches the head (R73; log entry 66). -/
def mxCapture (e : Env) (s : Nat) (q : QEntry) (b : Body) : List Nat × Body :=
  if (b.site s).mx.eng.cap.isNone && !mxReadable (b.site s) q then ([], b)
  else
    let (ds, b) := captureHead e s (mxDescs q) (b.site s).mx.eng b
    (ds, b.modMx s fun x => { x with eng := { x.eng with cap := some ds } })

/-- The head launches, or ends with the status of its checks, once every kickoff of its descriptors is due (R74, R78); it
waits while a bank of its descriptors wakes (R225). -/
def mxBegin (s : Nat) (e : Env) (q : QEntry) (b : Body) : Body :=
  let x := (b.site s).mx.eng
  if x.launched || (x.cap.isNone && mxReadable (b.site s) q && (b.site s).wakingAny (mxDescRanges q)) then b
  else
    let (ds, b) := mxCapture e s q b
    if !(kickoffsOf ds).all (kickDue e.now) then b
    else
      let st := mxStatus (b.site s) ds q
      (b.launchAll e (kickoffsOf ds)).modMx s fun x =>
        { x with eng := if st = mxOk then { x.eng with launched := true } else x.eng.ends st }

/-- MX_KICKOFF_LAUNCH (R74): a head that carries a kickoff launches when every kickoff of its descriptors is due. -/
def mxLaunch (s : Nat) (e : Env) (b : Body) : Body :=
  match (b.site s).mx.eng.head with
  | none => b
  | some q => if 408 ≤ s || kickoffsOf (mxPeek b s q) = [] then b else mxBegin s e q b

/-- MX_KICKOFF_LAUNCH. -/
def execMxKickoffLaunch (site : Nat) (s : State) : Host.Outcome State Fault Refusal := bodyStep (mxLaunch site) s

/-- The ECC checks of words of the store, each read once (R106, R439; log entry 68): those found uncorrectable. -/
def accCheck (e : Env) (s : Nat) (l : List Nat) (b : Body) : List Nat × Body :=
  if !armedAt b (detOf 2 s) then ([], b)
  else l.foldl (fun (bad, b) w =>
    let k := w / 0x10000
    match check (detOf 2 s) k b with
    | (some 1, b) => (bad, recordErr e { kind := 4, sev := 0, inj := true, det := detOf 2 s, site := s, unit := k } b)
    | (some _, b) => (bad ++ [w], recordErr e { kind := 5, sev := 1, inj := true, det := detOf 2 s, site := s, unit := k } b)
    | (none, b) => (bad, b)) ([], b)

/-- The words of the store that an executing instruction reads. A CLOSE in SHADOW mode reads none: its drain does. -/
def mxReadWords (x : MxSt) (ds : List Nat) (q : QEntry) : List Nat :=
  let of := fun g (tan : Bool) => match x.group g with
    | some k => regionWords k (x.live g k) (tan && k.dual) | none => []
  match q.mxFunc with
  | 1 => of q.mxG ((TDesc.ofNat (ds.getD 0 0)).dual || (TDesc.ofNat (ds.getD 1 0)).dual)
  | 2 => if x.accmode then [] else of q.mxG true
  | 3 => of q.mxG true ++ of q.mxH true
  | 6 => rangeWords (0, 0x80000)
  | _ => []

/-- The SRAM bytes that an executing instruction reads or writes, its captured descriptors apart (R79). -/
def mxUses (x : MxSt) (ds : List Nat) (q : QEntry) : List Range :=
  let a := TDesc.ofNat (ds.getD 0 0)
  match q.mxFunc with
  | 1 => a.ranges ++ (TDesc.ofNat (ds.getD 1 0)).ranges
  | 2 => match x.group q.mxG with | some k => if x.accmode then [] else outRanges k.out k.dual | none => []
  | 4 => match x.group q.mxG with
    | some k => a.dataRanges ++ a.scaleRanges ++ (if k.dual then a.tangentRanges else []) | none => []
  | 6 | 7 => [(q.a.toNat, mxImageBytes)]
  | _ => []

/-- The head executes: it launches first unless it has, SPILL and FILL only once every shadow drain has ended (R102); then
the banks it uses, one of which may have been handed away (R79) or may wake (R225); then the store's ECC (R106); then
the function itself. An instruction that R79 or R106 ends counts no pass (log entry 68). -/
def mxRun (func s : Nat) (f : Env → QEntry → List Nat → Body → Body) (e : Env) (b : Body) : Body :=
  match (b.site s).mx.eng.head with
  | none => b
  | some q =>
    if 408 ≤ s || q.mxFunc != func || (6 ≤ func && !(b.site s).mx.drains.isEmpty) then b
    else
      let b := mxBegin s e q b
      let x := (b.site s).mx
      if !x.eng.launched then b
      else
        let ds := x.eng.cap.getD []
        let ends := fun st (b : Body) => b.modMx s fun x => { x with eng := x.eng.ends st }
        if !(b.site s).ownsAll 2 (mxUses x ds q) then
          ends mxBank (if func = 1 || func = 4 then b.modMx s fun x => poisonGroup x q.mxG else b)
        else if (b.site s).wakingAny (mxUses x ds q) then b
        else
          let (bad, b) := accCheck e s (mxReadWords x ds q) b
          if !bad.isEmpty then ends mxAccUe (b.modMx s (poisonHit bad))
          else f e q ds b

/-- The head's effect on the engine, ending OK. -/
def mxDone (s : Nat) (f : MxSt → MxSt) (b : Body) : Body :=
  b.modMx s fun x => let y := f x; { y with eng := y.eng.ends mxOk }

/-- A change of store and flags. -/
def MxSt.withAcc (x : MxSt) (r : Mem × FFlags) : MxSt := ({ x with acc := r.1 }).addFlags r.2

/-- MX_OPEN (R513, R95): binds the output descriptor and zeroes the group. -/
def mxOpen (s : Nat) : Env → Body → Body :=
  mxRun 0 s fun _ q ds b => mxDone s (fun x =>
    let k : Group := { cls := q.mxClass, dual := q.mxDual, desc := ds.getD 0 0 }
    ({ x with acc := zeroSlots x.acc (slotsOf x.accmode k.cls k.dual q.mxG (x.phaseOf q.mxG)) }).setGroup q.mxG (some k)) b

/-- MX_OPEN. -/
def execMxOpen (site : Nat) (s : State) : Host.Outcome State Fault Refusal := bodyStep (mxOpen site) s

/-- MX_MMA (R82 to R90, R118 to R121). -/
def mxMma (s : Nat) : Env → Body → Body :=
  mxRun 1 s fun e q ds b =>
    match (b.site s).mx.group q.mxG with
    | none => b
    | some k =>
      let da := TDesc.ofNat (ds.getD 0 0)
      let db := TDesc.ofNat (ds.getD 1 0)
      match mmaKind da.fmt db.fmt with
      | none => b
      | some (_, kc) =>
        let (mv, b) := sramView e s (da.ranges ++ db.ranges) b
        mxDone s (fun x =>
          let y := x.withAcc (mmaStore mv (siteBase s) da db k (x.live q.mxG k) kc q (x.acc, 0))
          { y with passes := y.passes + BitVec.ofNat 64 (mmaPasses da k.out kc) }) b

/-- MX_MMA. -/
def execMxMma (site : Nat) (s : State) : Host.Outcome State Fault Refusal := bodyStep (mxMma site) s

/-- The digested writes of a drain: tensor id, sub, first index and count of each row's elements (R426). -/
def drainRuns (k : Group) : List (Nat × Nat × Nat × Nat) :=
  let o := k.out
  (List.range o.rows).flatMap fun i =>
    (o.tid, 0, o.index i 0, o.cols) :: if k.dual then [(o.tanId, 0, o.index i 0, o.cols)] else []

/-- MX_CLOSE (R96 to R99): GROUPS mode drains and frees; SHADOW mode swaps the halves, with a clear live half, and leaves the
queue. While the group's shadow still drains it waits, and MX_STALL_COUNT grows by a number of cycles that is free (R114). -/
def mxClose (s : Nat) : Env → Body → Body :=
  mxRun 2 s fun e q _ b =>
    let x := (b.site s).mx
    match x.group q.mxG with
    | none => b
    | some k =>
      if x.accmode then
        if x.drains.any (·.g == q.mxG) then
          let (n, b) := b.freshValue
          b.modMx s fun x => { x with stalls := x.stalls + n }
        else
          retryIssue e s (b.modMx s fun x =>
            let d : Drain := { g := q.mxG, half := x.live q.mxG k, grp := k, entry := q }
            let y := x.setGroup q.mxG none
            let y := { y with drains := y.drains ++ [d], phase := y.phase.set q.mxG (!y.phaseOf q.mxG), eng := y.eng.pop }
            let half := slotsOf true k.cls k.dual q.mxG (y.phaseOf q.mxG)
            { y with acc := zeroSlots y.acc (half.filter fun n => !y.usedSlots.contains n) })
      else if digWaits b (drainRuns k) then b
      else
        let d := drainElems e s (x.live q.mxG k) k q (2 ^ 14) b
        d.body.modMx s fun x =>
          let y := (x.setGroup q.mxG none).addFlags d.flags
          { y with eng := y.eng.ends d.status }

/-- MX_CLOSE. -/
def execMxClose (site : Nat) (s : State) (clash : List Nat := []) : Host.Outcome State Fault Refusal :=
  clashStep clash (mxClose site) s

/-- MX_FOLD (R100, R124): H is added into G and freed. -/
def mxFold (s : Nat) : Env → Body → Body :=
  mxRun 3 s fun _ q _ b =>
    match (b.site s).mx.group q.mxG, (b.site s).mx.group q.mxH with
    | some g, some h => mxDone s (fun x =>
        (x.withAcc (foldStore g (x.live q.mxG g) (x.live q.mxH h) (x.acc, 0))).setGroup q.mxH none) b
    | _, _ => b

/-- MX_FOLD. -/
def execMxFold (site : Nat) (s : State) : Host.Outcome State Fault Refusal := bodyStep (mxFold site) s

/-- MX_LOADACC (R101, R124). -/
def mxLoadacc (s : Nat) : Env → Body → Body :=
  mxRun 4 s fun e q ds b =>
    match (b.site s).mx.group q.mxG with
    | none => b
    | some k =>
      let t := TDesc.ofNat (ds.getD 0 0)
      let (mv, b) := sramView e s (mxUses (b.site s).mx ds q) b
      mxDone s (fun x => x.withAcc (loadStoreAcc mv (siteBase s) t k (x.live q.mxG k) (x.acc, 0))) b

/-- MX_LOADACC. -/
def execMxLoadacc (site : Nat) (s : State) : Host.Outcome State Fault Refusal := bodyStep (mxLoadacc site) s

/-- MX_DISCARD (R95): frees group G. -/
def mxDiscard (s : Nat) : Env → Body → Body :=
  mxRun 5 s fun _ q _ b => mxDone s (fun x => x.setGroup q.mxG none) b

/-- MX_DISCARD. -/
def execMxDiscard (site : Nat) (s : State) : Host.Outcome State Fault Refusal := bodyStep (mxDiscard site) s

/-- MX_SPILL (R102): the image is written and every group freed. -/
def mxSpill (s : Nat) : Env → Body → Body :=
  mxRun 6 s fun e q _ b =>
    let (hit, b) := unitWrite e 2 s (q.a.toNat, mxImageBytes)
      (b.mem.paste (siteBase s + q.a.toNat) mxImageBytes (mxImage (b.site s).mx)) b
    b.modMx s fun x => { x.freeAll with eng := x.eng.ends (if hit then mxCollide else mxOk) }

/-- MX_SPILL. -/
def execMxSpill (site : Nat) (s : State) (clash : List Nat := []) : Host.Outcome State Fault Refusal :=
  clashStep clash (mxSpill site) s

/-- MX_FILL (R102): the validated image restores the store, the groups and their phases. -/
def mxFill (s : Nat) : Env → Body → Body :=
  mxRun 7 s fun e q _ b =>
    let (mv, b) := sramView e s [(q.a.toNat, mxImageBytes)] b
    let img := mv.slice (siteBase s + q.a.toNat) mxImageBytes
    if imageOk img (b.site s).mx then
      mxDone s (fun x => { imageState img x with acc := img.slice 1024 0x80000 }) b
    else b.modMx s fun x => { x with eng := x.eng.ends mxFillBad }

/-- MX_FILL. -/
def execMxFill (site : Nat) (s : State) : Host.Outcome State Fault Refusal := bodyStep (mxFill site) s

/-- An error record kept while none is held (R113 and its counterparts). -/
def Eng.record (x : Eng) (w : Word64) : Eng := if bitOf x.err.toNat 63 then x else { x with err := w }

/-- A matrix instruction completes with a status: its counter, LAST_STATUS, and for a failing status the halt, MX_ERR
and EPEND (R105, R113, R193). -/
def mxFinish (e : Env) (s : Nat) (q : QEntry) (st : Nat) (b : Body) : Body :=
  let b := (b.advanceCc s q.mxCc).modMx s fun x => { x with eng := { x.eng with last := st } }
  if st = mxOk || st = mxFlushed then b
  else haltEngine e s 0 (b.modMx s fun x =>
    { x with eng := { (x.eng.record (BitVec.ofNat 64 (2 ^ 63 + st * 2 ^ 40 + q.mxG * 2 ^ 32 + q.word.toNat))) with halted := true } })

/-- MX_COMPLETE (R105): the ended head completes; a reserved FUNC ends with REJ_ENCODING. -/
def mxComplete (s : Nat) (e : Env) (b : Body) : Body :=
  let x := (b.site s).mx.eng
  match x.q with
  | [] => b
  | q :: _ =>
    let st := match x.done with
      | some st => some st
      | none => if !x.halted && 8 ≤ q.mxFunc then some mxEncoding else none
    match st with
    | none => b
    | some st => if 408 ≤ s then b else
      retryIssue e s (mxFinish e s q st (b.modMx s fun x => { x with eng := x.eng.pop }))

/-- MX_COMPLETE. -/
def execMxComplete (site : Nat) (s : State) : Host.Outcome State Fault Refusal := bodyStep (mxComplete site) s

/-- A shadow's region read by its drain: the poison value in it where a word is uncorrectable (R106). -/
def drainCheck (e : Env) (s : Nat) (d : Drain) (b : Body) : Bool × Body :=
  let (bad, b) := accCheck e s (regionWords d.grp d.half d.grp.dual) b
  (!bad.isEmpty, if bad.isEmpty then b else b.modMx s fun x => { x with acc := poisonRegion d.grp d.half x.acc })

/-- Must a drain wait, for a bank that wakes (R225) or for the digests (R427)? -/
def drainWaits (b : Body) (s : Nat) (k : Group) : Bool :=
  (b.site s).wakingAny (outRanges k.out k.dual) || digWaits b (drainRuns k)

/-- MX_SHADOW_DRAIN_END (R99): the shadow's elements are written and its CLOSE completes. -/
def mxDrainEnd (s g : Nat) (e : Env) (b : Body) : Body :=
  match (b.site s).mx.drains.find? (·.g == g) with
  | none => b
  | some d =>
    if 408 ≤ s then b
    else if drainWaits b s d.grp then b
    else
      let gone := fun (b : Body) => b.modMx s fun x => { x with drains := x.drains.filter (·.g != g) }
      match drainCheck e s d b with
      | (true, b) => mxFinish e s d.entry mxAccUe (gone b)
      | (false, b) =>
        let r := drainElems e s d.half d.grp d.entry (2 ^ 14) b
        mxFinish e s d.entry r.status ((gone r.body).modMx s fun x => x.addFlags r.flags)

/-- MX_SHADOW_DRAIN_END. -/
def execMxShadowDrainEnd (site g : Nat) (s : State) (clash : List Nat := []) : Host.Outcome State Fault Refusal :=
  clashStep clash (mxDrainEnd site g) s

/-- A shadow drain stopped by FLUSH: how many of its element groups were written is a matter of time, so it is a free
number, none where the drain waits; its CLOSE completes with FLUSHED (R105). -/
def mxStopDrain (e : Env) (s : Nat) (d : Drain) (b : Body) : Body :=
  let (n, b) := b.freshBelow (d.grp.out.rows * d.grp.out.cols + 1)
  let r := drainElems e s d.half d.grp d.entry (if drainWaits b s d.grp then 0 else n) b
  mxFinish e s d.entry mxFlushed (r.body.modMx s fun x => x.addFlags r.flags)

/-- MX_FLUSH (R105, R109). -/
def mxFlush (s : Nat) (e : Env) (b : Body) : Body :=
  let x := (b.site s).mx
  let b := overList x.drains (mxStopDrain e s) b
  let b := overList x.eng.q (fun q b => mxFinish e s q mxFlushed b) b
  retryIssue e s (b.modMx s fun x =>
    { x.freeAll with drains := [], eng := { x.eng with q := [], launched := false, done := none, cap := none, halted := false } })

/-- MX_FLUSH. -/
def execMxFlush (ag : Agent) (site : Nat) (s : State) (clash : List Nat := []) : Host.Outcome State Fault Refusal :=
  clashStep clash (fun e b => atSite site b (guarded e ag (oTl site 0x1008) b (mxFlush site e b))) s

/-- MX_RESUME (R109). -/
def execMxResume (ag : Agent) (site : Nat) (s : State) : Host.Outcome State Fault Refusal :=
  bodyStep (fun e b => atSite site b (guarded e ag (oTl site 0x1008) b
    (b.modMx site fun x => { x with eng := { x.eng with halted := false } }))) s

/-- Is an instruction of an engine in progress: launched or ended but not completed, or at the head with nothing to wait
for (R110, R161; log entry 63)? -/
def Eng.busy (x : Eng) (kwait : Bool) : Bool :=
  x.launched || x.done.isSome || (!x.q.isEmpty && !x.halted && !kwait)

/-- MX_STAT.IDLE (R110). -/
def MxSt.idle (x : MxSt) (kwait : Bool) : Bool := x.drains.isEmpty && !x.eng.busy kwait

/-- MX_CFG_WRITE (R94): ACCMODE changes only while the engine is idle, its queue empty and every slot FREE. The spec does
not say what becomes of a group's PHASE when ACCMODE changes, or at FLUSH and SPILL: the model keeps it, so that it reads
in MX_GROUP again when ACCMODE is SHADOW again (log entry 68). -/
def mxCfgWrite (ag : Agent) (s : Nat) (v : Nat) (e : Env) (b : Body) : Body :=
  let x := (b.site s).mx
  if mayWrite ag (oTl s 0x1000) && x.idle false && x.eng.q.isEmpty && x.allFree then
    b.modMx s fun x => { x with accmode := bitOf v 0 }
  else csrError e ag (oTl s 0x1000) b

/-- MX_CFG_WRITE. -/
def execMxCfgWrite (ag : Agent) (site : Nat) (v : Word64) (s : State) : Host.Outcome State Fault Refusal :=
  bodyStep (fun e b => atSite site b (mxCfgWrite ag site v.toNat e b)) s

end Sys2Proof.Machine
end

