-- ==== Sys2Proof/Machine/CopyOps.lean ====
section
/-! DEFINITION. What the copy engine's rows share: descriptors (R360, R377), launch checks (R358, R361, R379, R385,
R386), access to local and remote data (R363), conversion (R362), completion (R359, R382), and operation headers
(R367). -/
namespace Sys2Proof.Machine

-- Status codes (R382).
def cpOk : Nat := 0x00
def cpFormat : Nat := 0x01
def cpShape : Nat := 0x02
def cpCounter : Nat := 0x04
def cpBank : Nat := 0x06
def cpCollide : Nat := 0x07
def cpEncoding : Nat := 0x08
def cpFlushed : Nat := 0x0A
def cpUe : Nat := 0x0B
def cpRefused : Nat := 0x10
def cpMemUe : Nat := 0x11
def cpDead : Nat := 0x12
def cpStale : Nat := 0x13
def cpNoPerm : Nat := 0x14

/-- The first of two statuses that is not OK. -/
def firstBad (x y : Nat) : Nat := if x = cpOk then y else x

-- The operation header (R367).

/-- The operation header. R367 gives it no field for AOP, which R373 needs, nor for the COLLID of a collective's GET_REQ,
which R407 needs; the model carries them in the reserved bits [191:180] as `ext` (log entries 40 and 41). -/
structure OpHdr where
  opc : Nat
  comb : Bool
  hop : Bool
  genchk : Bool
  tccen : Bool
  tcc : Nat
  tag : Nat
  orig : Nat
  final : Nat
  gen : Nat
  step : Nat
  rtile : Nat
  rctx : Nat
  fmt : Nat
  count : Nat
  cwin : Nat
  ext : Nat
  addr : Nat
  deriving DecidableEq, Repr

/-- The header as a 256-bit number. -/
def OpHdr.num (h : OpHdr) : Nat :=
  h.opc % 256 + b2n h.comb * 2 ^ 8 + b2n h.hop * 2 ^ 9 + b2n h.genchk * 2 ^ 10 + b2n h.tccen * 2 ^ 11 + h.tcc % 16 * 2 ^ 12 +
    h.tag % 2 ^ 16 * 2 ^ 16 + h.orig % 2 ^ 16 * 2 ^ 32 + h.final % 2 ^ 16 * 2 ^ 48 + h.gen % 2 ^ 16 * 2 ^ 64 +
    h.step % 2 ^ 48 * 2 ^ 80 + h.rtile % 512 * 2 ^ 128 + h.rctx % 8 * 2 ^ 137 + h.fmt % 16 * 2 ^ 140 +
    h.count % 2 ^ 32 * 2 ^ 144 + h.cwin % 16 * 2 ^ 176 + h.ext % 2 ^ 12 * 2 ^ 180 + h.addr % 2 ^ 64 * 2 ^ 192

/-- The header that a 256-bit number spells. -/
def OpHdr.ofNat (n : Nat) : OpHdr where
  opc := bitsOf n 0 8
  comb := bitOf n 8
  hop := bitOf n 9
  genchk := bitOf n 10
  tccen := bitOf n 11
  tcc := bitsOf n 12 4
  tag := bitsOf n 16 16
  orig := bitsOf n 32 16
  final := bitsOf n 48 16
  gen := bitsOf n 64 16
  step := bitsOf n 80 48
  rtile := bitsOf n 128 9
  rctx := bitsOf n 137 3
  fmt := bitsOf n 140 4
  count := bitsOf n 144 32
  cwin := bitsOf n 176 4
  ext := bitsOf n 180 12
  addr := bitsOf n 192 64

/-- The header of a received frame. -/
def headOf (f : Frame) : OpHdr := OpHdr.ofNat (ofBytes (f.payload.take 32))

/-- Header and data as a payload. -/
def OpHdr.payload (h : OpHdr) (data : List Byte) : List Byte := leBytes h.num 32 ++ data

/-- RTILE of a collective's GET_REQ, whose target is the serving rank's own descriptor (log entry 41). -/
def collTile : Nat := 0x1FE

/-- A combining window in nanoseconds (R360). -/
def windowNs (cwin : Nat) : Nat := if cwin = 0 then 2000 else cwin * 250

/-- AOP of an atomic's frame. -/
def OpHdr.aop (h : OpHdr) : Nat := h.ext % 16

/-- Data bytes that a frame carries after its operation header (R333): a multiple of 96, so that no element of any format
is cut, before and after conversion (log entry 42). -/
def pieceMax (b : Body) : Nat := ((if b.flag (oRtr 0x28) 49 then 1024 else 8192) - 32) / 96 * 96

/-- Bytes cut into pieces, each with its offset. -/
def piecesOf (k : Nat) (data : List Byte) : List (Nat × List Byte) :=
  ((chunks k (data.length / k + 1) data).zipIdx).map fun x => (x.2 * k, x.1)

-- Packed elements (R49).

/-- Bytes of `n` packed elements of a format. -/
def packedBytes (fmt n : Nat) : Nat := cdiv (n * fmtWidth fmt) 8

/-- Alignment of an element of a format. -/
def elemAlign (fmt : Nat) : Nat := max 1 (fmtWidth fmt / 8)

/-- R50 for a run of `n` elements. -/
def runOk (fmt n : Nat) : Bool :=
  match fmtWidth fmt with | 4 => n % 2 == 0 | 6 => n % 4 == 0 | _ => true

/-- The packed elements as numbers. -/
def unpack (fmt n : Nat) (data : List Byte) : List Nat :=
  let v := ofBytes data
  (List.range n).map fun i => bitsOf v (i * fmtWidth fmt) (fmtWidth fmt)

/-- Elements packed into bytes. -/
def pack (fmt : Nat) (l : List Nat) : List Byte :=
  let w := fmtWidth fmt
  leBytes (l.foldr (fun x v => x % 2 ^ w + v * 2 ^ w) 0) (packedBytes fmt l.length)

-- The copy descriptor (R360).

/-- Bits of an operation's descriptor. -/
def CpOp.d (o : CpOp) (lo len : Nat) : Nat := bitsOf o.desc lo len

def CpOp.dfmt (o : CpOp) : Nat := o.d 0 4
def CpOp.sfmt (o : CpOp) : Nat := o.d 4 4
def CpOp.op (o : CpOp) : Nat := if o.coll then o.d 4 4 else o.d 8 3
def CpOp.tc (o : CpOp) : Nat := if o.coll then o.d 10 2 else o.d 12 2
def CpOp.comb (o : CpOp) : Bool := bitOf o.desc 14
def CpOp.genchk (o : CpOp) : Bool := bitOf o.desc 15
def CpOp.ctx (o : CpOp) : Nat := if o.coll then o.d 13 3 else o.d 21 3
def CpOp.aop (o : CpOp) : Nat := o.d 24 4
def CpOp.cwin (o : CpOp) : Nat := if o.coll then o.d 388 4 else o.d 28 4
def CpOp.gen (o : CpOp) : Nat := o.d 64 16
def CpOp.step (o : CpOp) : Nat := o.d 80 48
def CpOp.laddr (o : CpOp) : Nat := o.d 128 64
def CpOp.raddr (o : CpOp) : Nat := o.d 192 64
def CpOp.rdev (o : CpOp) : Nat := o.d 256 16
def CpOp.rtile (o : CpOp) : Nat := o.d 272 9
def CpOp.rctx (o : CpOp) : Nat := o.d 281 3
def CpOp.nelem (o : CpOp) : Nat := if o.coll then o.d 320 32 else o.d 288 32
def CpOp.tid (o : CpOp) : Nat := if o.coll then o.d 464 16 else o.d 448 16
def CpOp.org (o : CpOp) : Nat := o.d 464 40

-- The collective descriptor (R377).
def CpOp.ax (o : CpOp) : Nat := o.d 8 2
def CpOp.collid (o : CpOp) : Nat := o.d 16 12
def CpOp.when_ (o : CpOp) : Bool := bitOf o.desc 28
def CpOp.src (o : CpOp) : Nat := o.d 128 64
def CpOp.dst (o : CpOp) : Nat := o.d 192 64
def CpOp.ret (o : CpOp) : Nat := o.d 256 64
def CpOp.whistle (o : CpOp) : Nat := o.d 352 32
def CpOp.root (o : CpOp) : Nat := o.d 384 4
def CpOp.haddr (o : CpOp) : Nat := o.d 400 64

/-- Is it one of the 64-bit integer atomics (R368)? -/
def CpOp.atom64 (o : CpOp) : Bool := !o.coll && o.op == 3 && 3 ≤ o.aop && o.aop ≤ 7

/-- Is the operation local (R360)? -/
def CpOp.isLocal (o : CpOp) (b : Body) : Bool := o.rdev == b.coord

/-- Does it go over the fabric as a copy? -/
def CpOp.remote (o : CpOp) (b : Body) : Bool := o.op != 4 && !o.isLocal b

/-- The rank of this device and the size of its ring on an axis (R378). -/
def rankOf (b : Body) (a : Nat) : Nat := axisOf b.coord a
def CpOp.n (o : CpOp) (b : Body) : Nat := b.axisSize o.ax
/-- Elements of one segment. -/
def CpOp.seg (o : CpOp) (b : Body) : Nat := o.nelem / o.n b
/-- The device of a rank. -/
def CpOp.device (o : CpOp) (b : Body) (j : Nat) : Nat := withAxis b.coord o.ax j
/-- Is it a reduction? -/
def CpOp.reduces (o : CpOp) : Bool := o.op == 1 || o.op == 3
/-- TR_MEMBERS as in effect (R411). -/
def members (b : Body) : Nat := bitsOf (b.eff (oTr 0x20)) 0 16
/-- Does a rank take part (R386)? -/
def CpOp.member (o : CpOp) (b : Body) (j : Nat) : Bool := !o.when_ || bitOf (members b) j
/-- Does its contribution reach others, or theirs reach it: every rank but the own (R378, R386)? -/
def CpOp.peers (o : CpOp) (b : Body) : List Nat :=
  (List.range (o.n b)).filter fun j => j != rankOf b o.ax && o.member b j
/-- TR_STRAG at the launch (R411). -/
def CpOp.rootPos (o : CpOp) : Nat := bitsOf o.policy 4 4
/-- POLICY at the launch: 0 WAIT, 1 CARRY, 2 DROP. -/
def CpOp.straggler (o : CpOp) : Nat := bitsOf o.policy 0 2
/-- The current layout generation. -/
def Body.gen (b : Body) : Nat := b.field (oTr 0x08) 0 16

/-- Bytes of the local elements. -/
def CpOp.localBytes (o : CpOp) : Nat :=
  if o.atom64 then 8 else packedBytes (if o.op = 2 then o.dfmt else o.sfmt) o.nelem

/-- Bytes of the remote elements. -/
def CpOp.remoteBytes (o : CpOp) : Nat :=
  if o.atom64 then 8 else packedBytes (if o.op = 2 then o.sfmt else o.dfmt) o.nelem

/-- The format that travels (R362: conversion is at the issuing device). -/
def CpOp.wireFmt (o : CpOp) : Nat := if o.op = 2 then o.sfmt else o.dfmt

-- Launch checks.

/-- The instruction word's own encoding (R356). -/
def cpEncodingOk (q : QEntry) : Bool :=
  let w := q.word.toNat
  bitsOf w 22 4 ≤ 1 && bitsOf w 12 5 == 0 && bitsOf w 8 4 == 0 && bitsOf w 0 2 == 0

/-- FUNC names a collective descriptor. -/
def QEntry.cpColl (q : QEntry) : Bool := bitsOf q.word.toNat 22 4 == 1

/-- The completion counter that the instruction names. -/
def QEntry.cpCc (q : QEntry) : Nat := bitsOf q.word.toNat 4 4

/-- Can the descriptor be read: aligned, in banks that serve the engine (R358, R511)? -/
def cpDescOk (t : Site) (q : QEntry) : Bool := q.a.toNat % 64 == 0 && t.servesAll 5 [(q.a.toNat, 64)]

/-- Encodings of a copy descriptor that end it with REJ_ENCODING (R360, R361, R368, R431). -/
def CpOp.copyEncodingOk (o : CpOp) : Bool :=
  1 ≤ o.op && o.op ≤ 4 && (o.op != 3 || o.aop ≤ 7) && (o.op == 4 || o.rtile ≤ 383) &&
    (!o.comb || o.op == 2 || (o.op == 3 && o.aop ≤ 2)) && (o.entry.priv || o.ctx == o.squad)

/-- Format conditions of a copy (R361). -/
def CpOp.copyFormatOk (o : CpOp) : Bool :=
  if o.op = 4 then o.sfmt == 0xB && o.dfmt == 0xB
  else if o.op = 3 then o.atom64 || (o.sfmt == 1 && o.dfmt == 1)
  else o.sfmt ≤ 0xC && o.dfmt ≤ 0xC && (o.sfmt == o.dfmt || fmtIsFloat o.sfmt == fmtIsFloat o.dfmt)

/-- Shape conditions of a copy (R361, R368). -/
def CpOp.copyShapeOk (o : CpOp) : Bool :=
  if o.op = 4 then o.nelem != 0 && o.nelem ≤ 8952
  else if o.atom64 then o.nelem == 1 && o.laddr % 8 == 0 && o.raddr % 8 == 0
  else if o.op = 3 then
    1 ≤ o.nelem && o.nelem ≤ 16 && o.laddr % 4 == 0 && o.raddr % 4 == 0 && o.raddr % 64 + 4 * o.nelem ≤ 64
  else
    o.nelem != 0 && runOk o.sfmt o.nelem && runOk o.dfmt o.nelem &&
      o.laddr % elemAlign (if o.op = 2 then o.dfmt else o.sfmt) == 0 &&
      o.raddr % elemAlign o.wireFmt == 0

/-- The local SRAM bytes of a copy (R358). -/
def CpOp.copyRanges (o : CpOp) (b : Body) (s : Nat) : List Range :=
  (if o.laddr < 2 ^ 21 then [(o.laddr, o.localBytes)] else []) ++
    (if o.op != 4 && o.op != 3 && o.isLocal b && o.raddr < 2 ^ 21 && b.siteOf o.rtile == s then [(o.raddr, o.remoteBytes)] else [])

/-- Permission of a copy (R345, R361): FB_PERMq as in effect. -/
def CpOp.permitted (o : CpOp) (b : Body) : Bool :=
  let p := if o.squad < 8 then b.eff (oRtr (0x80 + 8 * o.squad)) else 0
  bitOf p o.tc &&
    (if o.coll then bitOf p 6
     else if o.op = 4 then bitOf p (4 + o.rtile % 2)
     else o.isLocal b || bitOf p 6)

/-- Is the descriptor's generation older than the device's (R317, R361)? -/
def CpOp.old (o : CpOp) (b : Body) : Bool := serialDiff o.gen b.gen 16 < 0

/-- The first condition of a copy in the order of R512; a condition of the descriptor's encoding comes first. -/
def CpOp.copyStatus (o : CpOp) (b : Body) (s : Nat) : Nat :=
  if !o.copyEncodingOk then cpEncoding
  else if !o.copyFormatOk then cpFormat
  else if !o.copyShapeOk then cpShape
  else if 2 ^ 40 ≤ (o.org + o.nelem - 1) / 8 then cpCounter
  else if !(b.site s).servesAll 5 (o.copyRanges b s) then cpBank
  else if !o.permitted b then cpNoPerm
  else if o.op != 4 && b.isDead o.rdev then cpDead
  else if o.genchk && o.old b then cpStale
  else cpOk

/-- Encodings of a collective that end it with REJ_ENCODING (R361, R377, R385, R386). -/
def CpOp.collEncodingOk (o : CpOp) (b : Body) : Bool :=
  1 ≤ o.op && o.op ≤ 4 && (o.entry.priv || o.ctx == o.squad) &&
    (!o.when_ || (o.ax == 0 && o.reduces && o.member b (rankOf b 0) && o.member b o.rootPos))

/-- Format conditions of a collective (R379, R20). -/
def CpOp.collFormatOk (o : CpOp) : Bool :=
  if o.reduces then o.dfmt ≤ 3 || o.dfmt == 9 else o.dfmt ≤ 0xC

/-- Elements of SRC. -/
def CpOp.srcElems (o : CpOp) (b : Body) : Nat := if o.op = 2 then o.seg b else o.nelem

/-- Shape conditions of a collective (R50, R379, R392, R511). -/
def CpOp.collShapeOk (o : CpOp) (b : Body) : Bool :=
  o.nelem != 0 && o.nelem % o.n b == 0 && (o.op != 4 || o.root < o.n b) &&
    runOk o.dfmt (if o.op = 4 then o.nelem else o.seg b) &&
    o.src % elemAlign o.dfmt == 0 && o.dst % elemAlign o.dfmt == 0 && (!o.reduces || o.ret % elemAlign o.dfmt == 0) &&
    (!o.when_ || o.haddr % 64 == 0)

/-- The local SRAM bytes of a collective (R358, R392). -/
def CpOp.collRanges (o : CpOp) (b : Body) : List Range :=
  let sram := fun a n => if a < 2 ^ 21 then [(a, n)] else []
  let all := packedBytes o.dfmt o.nelem
  (if o.op = 4 && o.root != rankOf b o.ax then [] else sram o.src (packedBytes o.dfmt (o.srcElems b))) ++ sram o.dst all ++
    (if o.reduces then sram o.ret all else []) ++ (if o.when_ then sram o.haddr 64 else [])

/-- The first condition of a collective in the order of R512; a rank in the dead table is a dead target (R375). -/
def CpOp.collStatus (o : CpOp) (b : Body) (s : Nat) : Nat :=
  if !o.collEncodingOk b then cpEncoding
  else if !o.collFormatOk then cpFormat
  else if !o.collShapeOk b then cpShape
  else if !(b.site s).servesAll 5 (o.collRanges b) then cpBank
  else if !o.permitted b then cpNoPerm
  else if (if o.op = 4 then [o.root].filter (· != rankOf b o.ax) else o.peers b).any fun j => b.isDead (o.device b j) then cpDead
  else if o.old b then cpStale
  else cpOk

-- Access (R363).

/-- The end of a transfer at which data lies: a tile's site, where its accesses enter the mesh, the unit its bank must
serve, the context of its virtual addresses, who stalls, and the logical tile where HOLD makes it wait (R27). -/
structure Side where
  site : Nat
  stop : Stop
  unit : Nat
  ctx : Nat
  who : Nat
  tile : Option Nat
  deriving DecidableEq, Repr

/-- The side of an issuing tile's own addresses; after a reset of the tile its banks serve the mesh remote port alone (R228,
log entry 65). -/
def CpOp.here (o : CpOp) (s : Nat) : Side :=
  { site := s, stop := .tile s, unit := if o.orphan then 6 else 5, ctx := o.ctx, who := whoOp o.tag, tile := none }

/-- The side that an RTILE and RCTX name at this device; a tile's own engine uses its own banks, everything else comes
through the mesh remote port (R215), from the issuing tile or, for what a port brings, from the router on I/O die E. -/
def sideOf (b : Body) (rtile rctx who : Nat) (s : Option Nat) : Side :=
  let t := b.siteOf rtile
  { site := t, stop := match s with | some x => .tile x | none => .east, unit := if s == some t then 5 else 6,
    ctx := rctx, who := who, tile := some rtile }

/-- How an access ends: its bytes and a status, MEM_UE where a poisoned line, a lost stack or a lost packet was met (R276,
R435) and COLLIDE where a write lost a collision (R224, R363); a stall; or a refusal. -/
inductive SideAcc where
  | ok (bytes : List Byte) (st : Nat)
  | stall
  | refused
  deriving DecidableEq, Repr

/-- Does the side wait for a held tile, or for one that a call-up has taken (R27, R476)? -/
def Side.held (d : Side) (b : Body) : Bool := match d.tile with | some n => b.holdOf n || donorWaits b n d.ctx | none => false

/-- Bytes read at a side. -/
def sideRead (e : Env) (d : Side) (a n : Nat) (b : Body) : SideAcc × Body :=
  if d.held b then (.stall, b)
  else if a < 2 ^ 21 then
    let t := b.site d.site
    if !t.servesAll d.unit [(a, n)] then (.refused, b)
    else if wakingIn t (a, n) then (.stall, b)
    else if d.unit = 5 then
      let (m, b) := sramView e d.site [(a, n)] b
      (.ok (m.bytes (siteBase d.site + a) n) cpOk, b)
    else match physRead e d.stop (siteBase d.site + a) n b with
      | (.ok v, b) => (.ok v cpOk, b)
      | (.poison v, b) => (.ok v cpMemUe, b)
      | (_, b) => (.refused, b)
  else match reachAll b d.ctx a n false with
    | .refused => (.refused, b)
    | .stall v r => let (no, b) := stallOn d.ctx d.who v r b; (if no then .refused else .stall, b)
    | .pieces l =>
      let (v, st, b) := l.foldl (fun (v, st, b) (pa, k) =>
        match physRead e d.stop pa k b with
        | (.ok x, b) => (v ++ x, st, b)
        | (.poison x, b) => (v ++ x, cpMemUe, b)
        | (_, b) => (v ++ ones k, st, addrError e 5 pa b)) (([] : List Byte), cpOk, b)
      (.ok v st, b)

/-- Bytes written at a side. -/
def sideWrite (e : Env) (d : Side) (a : Nat) (v : List Byte) (b : Body) : SideAcc × Body :=
  if d.held b then (.stall, b)
  else if a < 2 ^ 21 then
    let t := b.site d.site
    if !t.servesAll d.unit [(a, v.length)] then (.refused, b)
    else if wakingIn t (a, v.length) then (.stall, b)
    else if d.unit = 5 then
      let (hit, b) := unitWrite e 5 d.site (a, v.length) (b.mem.write (siteBase d.site + a) v) b
      (.ok [] (if hit then cpCollide else cpOk), b)
    else match physWrite e d.stop (siteBase d.site + a) v b with
      | (.ok _, b) => (.ok [] cpOk, b)
      | (.poison _, b) => (.ok [] cpMemUe, b)
      | (_, b) => (.refused, b)
  else match reachAll b d.ctx a v.length true with
    | .refused => (.refused, b)
    | .stall x r => let (no, b) := stallOn d.ctx d.who x r b; (if no then .refused else .stall, b)
    | .pieces l =>
      let (_, st, b) := l.foldl (fun (rest, st, b) (pa, k) =>
        match physWrite e d.stop pa (rest.take k) b with
        | (.unmapped, b) => (rest.drop k, st, addrError e 5 pa b)
        | (.poison _, b) => (rest.drop k, cpMemUe, b)
        | (_, b) => (rest.drop k, st, b)) (v, cpOk, b)
      (.ok [] st, b)

/-- The physical place of one element at a side, where an atomic can reach it (R368): an HBM page. None with an access
that ends badly where the packet to its channel was lost (R435). -/
def sidePlace (e : Env) (d : Side) (a n : Nat) (b : Body) : (Option Nat × SideAcc) × Body :=
  if d.held b then ((none, .stall), b)
  else if a < 2 ^ 21 then ((none, .refused), b)
  else match reachAll b d.ctx a n true with
    | .pieces [(pa, _)] =>
      if hbmTop ≤ pa then ((none, .refused), b)
      else match meshLost e d.stop (.channel (channelSite pa)) b with
        | (true, b) => ((none, .ok [] cpMemUe), b)
        | (false, b) => ((some pa, .ok [] cpOk), b)
    | .stall v r => let (no, b) := stallOn d.ctx d.who v r b; ((none, if no then .refused else .stall), b)
    | _ => ((none, .refused), b)

/-- Does the remote device accept RCTX: the context of the squad that RTILE belongs to (R363), or of the donor that a called
tile goes back to, whose requests wait (R476)? -/
def rctxOk (b : Body) (rtile rctx : Nat) : Bool := rtile < 384 && (b.squadOf rtile == some rctx || donorWaits b rtile rctx)

-- Conversion (R362).

/-- Flags of a tile's copies (R362, R370, R383). -/
def cpFlags (s : Nat) (f : FFlags) (b : Body) : Body :=
  b.modSite s fun t => { t with cp := { t.cp with eng := { t.cp.eng with flags := t.cp.eng.flags ||| f } } }

/-- Elements of SFMT, the first of linear index `i0`, as DFMT under stream 1, with their flags (R362). -/
def CpOp.convert (o : CpOp) (i0 : Nat) (data : List Byte) : List Byte × FFlags :=
  if o.sfmt = o.dfmt then (data, 0#8)
  else
    let n := data.length * 8 / fmtWidth o.sfmt
    let l := ((unpack o.sfmt n data).zipIdx).map fun x =>
      convertElem o.sfmt o.dfmt x.1 (elemSel o.entry.sr o.entry.key.toNat 1 o.tid (i0 + x.2) 0 o.step)
    (pack o.dfmt (l.map (·.1)), l.foldl (fun f x => f ||| x.2) 0#8)

/-- A run of elements of a format, the first of linear index `first`, digested (R426). -/
def digRun (tid fmt step first : Nat) (data : List Byte) (b : Body) : Body :=
  let slots := digSlots b tid 0
  if slots.isEmpty then b
  else ((unpack fmt (data.length * 8 / fmtWidth fmt) data).zipIdx).foldl (fun b x =>
    digElem slots tid 0 fmt step (first + x.2) x.1 b) b

/-- The elements of a copy written at this device, digested (R426). -/
def CpOp.digest (o : CpOp) (k : Nat) (data : List Byte) (b : Body) : Body := digRun o.tid o.dfmt o.step (o.org + k) data b

-- Operations.

/-- An operation of a site. -/
def Body.opOf (b : Body) (s tag : Nat) : Option CpOp := (b.site s).cp.ops.find? (·.tag == tag)

/-- The site and operation of a tag. -/
def Body.findTag (b : Body) (tag : Nat) : Option (Nat × CpOp) :=
  (List.range 408).findSome? fun s => (b.opOf s tag).map fun o => (s, o)

/-- The operation ends with a status, unless it has ended. -/
def endOp (s tag st : Nat) (b : Body) : Body :=
  b.modOp s tag fun o => if o.status.isSome then o else { o with status := some st }

/-- The counter of a receiving tile advances (R364). -/
def advanceTcc (h : OpHdr) (n : Nat) (b : Body) : Body :=
  if h.tccen then foldN n (fun _ b => b.advanceTile h.rtile h.tcc) b else b

/-- The next device on the route toward FINAL (R371). -/
def nextHop (b : Body) (final : Nat) : Nat :=
  match route b final 0 with
  | .out p _ => b.neighbour p
  | _ => final

/-- The header of a copy's frames (R367). -/
def CpOp.head (o : CpOp) (b : Body) (opc count addr : Nat) : OpHdr where
  opc := opc
  comb := !o.coll && o.comb
  hop := false
  genchk := o.coll || o.genchk
  tccen := !o.coll && bitOf o.desc 20
  tcc := if o.coll then 0 else o.d 16 4
  tag := o.tag
  orig := b.coord
  final := if o.coll then 0 else o.rdev
  gen := o.gen
  step := o.step
  rtile := if o.coll then collTile else o.rtile
  rctx := if o.coll then o.ctx else o.rctx
  fmt := if o.coll then o.dfmt else o.wireFmt
  count := count
  cwin := o.cwin
  ext := if o.coll then o.collid else if o.op = 3 then o.aop else 0
  addr := addr

/-- A frame of an operation handed to the transport: the operation waits for it. -/
def sendOp (e : Env) (s : Nat) (o : CpOp) (h : OpHdr) (dst : Nat) (atom : Bool) (data : List Byte) (b : Body) : Body :=
  sendData e dst o.tc atom (h.payload data) [(s, o.tag)] (b.modOp s o.tag fun x => { x with await_ := x.await_ + 1 })

/-- An answer that says why a put or piece was not written: with it, the frame is acknowledged in the end (R365, R376). -/
def refuseFrame (e : Env) (f : Frame) (opc count : Nat) (data : List Byte) (b : Body) : Body :=
  sendAnswer e f ({ headOf f with opc := opc, count := count }.payload data) b

/-- An answer to a received frame: the same header with another OPC and COUNT, to the device it came from. -/
def answerFrame (e : Env) (f : Frame) (opc count : Nat) (data : List Byte) (b : Body) : Body :=
  sendData e f.src.toNat f.tc.toNat false ({ headOf f with opc := opc, count := count }.payload data) [] b

/-- The oldest frame of an OPC in the inbox that can be served leaves it; one that cannot be served yet stays, and the
next is tried. -/
def serveInbox (opc : Nat) (serve : Frame → Body → Bool × Body) (b : Body) : Body :=
  ((b.dev.fab.inbox.filter fun f => f.opc == opc).foldl (fun (found, b) f =>
    if found then (true, b)
    else
      let (ok, c) := serve f { b with dev.fab.inbox := b.dev.fab.inbox.erase f }
      if ok then (true, applied f c) else (false, { c with dev.fab.inbox := b.dev.fab.inbox })) (false, b)).2

/-- A frame that cannot be applied yet: NOTREADY with the COLLID, or 0 for a copy; the issuer holds it, and it stays
unacknowledged (R365, R376). -/
def notReady (e : Env) (f : Frame) (collid : Nat) (b : Body) : Body :=
  let b := { b with dev.fab.deferred := b.dev.fab.deferred ++ [(flowKey f.src.toNat f.tc.toNat, f.seq.toNat)],
                    dev.tr.answered := if b.dev.tr.answered.contains (f.src, collid) then b.dev.tr.answered
                                       else b.dev.tr.answered ++ [(f.src, collid)] }
  answerFrame e f 7 collid [] b

/-- An operation is in flight at the copy engine of a site and its meaning still to run. -/
def pendingOp (b : Body) (s tag op : Nat) (coll : Bool) : Option CpOp :=
  match b.opOf s tag with
  | some o => if o.op == op && o.coll == coll && !o.issued && o.status.isNone then some o else none
  | none => none

/-- The operation has been issued. One whose tile has been reset since is then done with (R382). -/
def issued (s tag : Nat) (b : Body) : Body :=
  (b.modOp s tag fun o => { o with issued := true }).modSite s fun t =>
    { t with cp := { t.cp with ops := t.cp.ops.filter fun o => !(o.orphan && o.tag == tag) } }

end Sys2Proof.Machine
end

