-- ==== Sys2Proof/Machine/Atom.lean ====
section
/-! DEFINITION. Atomics, exact sums and combining (R368 to R374). -/
namespace Sys2Proof.Machine

-- Exact sums (R369 to R371).

/-- An exact-sum register that holds nothing. -/
def ExactSum.empty (pa step : Nat) : ExactSum := { pa := pa, step := step, sum := 0, nanf := false, pinf := false, ninf := false }

/-- An FP32 value added exactly, in units of 2^−149, a subnormal read as zero (R52, R369, R370). -/
def ExactSum.addBits (x : ExactSum) (v : Nat) : ExactSum :=
  match (readElem 1 v).1 with
  | .nan => { x with nanf := true }
  | .inf neg => { x with pinf := x.pinf || !neg, ninf := x.ninf || neg }
  | .fin neg m k _ =>
    let n : Int := (shiftNat m (k + 149) : Nat)
    { x with sum := x.sum + if neg then -n else n }

/-- Two partials added (R370, R373). -/
def ExactSum.merge (x y : ExactSum) : ExactSum :=
  { x with sum := x.sum + y.sum, nanf := x.nanf || y.nanf, pinf := x.pinf || y.pinf, ninf := x.ninf || y.ninf }

/-- The single RNE rounding of a register, with its flags (R370). -/
def ExactSum.value (x : ExactSum) : Nat × FFlags :=
  if x.nanf then (canonNan 1, 0#8)
  else if x.pinf && x.ninf then (canonNan 1, fInvalid)
  else if x.pinf then (encInf 1 false, 0#8)
  else if x.ninf then (encInf 1 true, 0#8)
  else roundFloat 1 (.fin (decide (x.sum < 0)) x.sum.natAbs (-149) false) .rne

/-- The 48 bytes of a partial (R373). -/
def ExactSum.bytes (x : ExactSum) : List Byte :=
  leBytes (uBits 320 x.sum) 40 ++ [BitVec.ofNat 8 (b2n x.nanf + 2 * b2n x.pinf + 4 * b2n x.ninf)] ++ List.replicate 7 0#8

/-- The partial that 48 bytes spell. -/
def ExactSum.ofBytes (l : List Byte) : ExactSum :=
  let f := (l.getD 40 0#8).toNat
  { pa := 0, step := 0, sum := sInt 320 (Machine.ofBytes (l.take 40)), nanf := bitOf f 0, pinf := bitOf f 1, ninf := bitOf f 2 }

/-- Registers of one controller (R369). -/
def sumRegs : Nat := 4096

/-- What reading an FP32 operand of an exact sum sets (R52, R55). -/
def sumFlags (v : Nat) : FFlags := let x := readElem 1 v; x.2 ||| fIf x.1.isNan fNanIn

/-- The register of an element and step, and the flags of the stored value's read; where none is bound, one is bound and loads
the stored value (R369). Which of the registers bound to an older step is taken is open, but for one bound to the same
element. None: every register of the controller is bound to this step. -/
def bindSum (pa step : Nat) (b : Body) : Option (ExactSum × FFlags) × Body :=
  let l := b.dev.fab.sums
  match l.find? fun x => x.pa == pa && x.step == step with
  | some x => (some (x, 0#8), b)
  | none =>
    let old := b.mem.num pa 4
    let new := (ExactSum.empty pa step).addBits old
    let used := l.filter fun x => (hbmPlace x.pa).1 == (hbmPlace pa).1
    let older := used.filter fun x => x.step < step
    let put := fun (l : List ExactSum) (b : Body) => (some (new, sumFlags old), { b with dev.fab.sums := l ++ [new] })
    if older.any fun x => x.pa == pa then put (l.filter fun x => !(x.pa == pa && x.step < step)) b
    else if used.length < sumRegs then put l b
    else if older.isEmpty then (none, b)
    else
      let (i, b) := b.freshBelow older.length
      match older[i]? with
      | some x => put (l.erase x) b
      | none => (none, b)

/-- A register's new contents. -/
def putSum (x : ExactSum) (b : Body) : Body :=
  { b with dev.fab.sums := mapWhere b.dev.fab.sums (fun y => y.pa == x.pa && y.step == x.step) fun _ => x }

-- Applying (R368).

/-- The operands of an atomic frame (R367). -/
def atomOpnd (f : Frame) (k : Nat) : Nat := ofBytes ((f.body.drop (8 * k)).take 8)

/-- The FP32 values of an ATOM frame. -/
def atomValues (f : Frame) : List Nat := (chunks 4 16 (f.body.drop 16)).map ofBytes

/-- What an ATOM or ATOM_PART adds to each element, as partials (R371, R373). -/
def atomPartials (f : Frame) : List ExactSum :=
  if f.opc = 5 then (chunks 48 16 f.body).map ExactSum.ofBytes
  else (atomValues f).map fun v => (ExactSum.empty 0 0).addBits v

/-- The FP32 values that an ATOM or ATOM_PART of FMAX32 or FMIN32 carries. -/
def atomExtremes (f : Frame) : List Nat :=
  if f.opc = 5 then (chunks 48 16 f.body).map fun l => ofBytes (l.take 4) else atomValues f

/-- Bytes that an atomic covers at its target. -/
def atomSpan (f : Frame) : Nat :=
  if 3 ≤ (headOf f).aop then 8 else 4 * (if f.opc = 5 then f.body.length / 48 else (f.body.length - 16) / 4)

/-- The old value written at LADDR and the operation ended (R364): false while the write stalls. -/
def atomLand (e : Env) (s : Nat) (o : CpOp) (st old : Nat) (b : Body) : Bool × Body :=
  if st = cpOk && o.atom64 then
    match sideWrite e (o.here s) o.laddr (leBytes old 8) b with
    | (.stall, b) => (false, b)
    | (.refused, b) => (true, endOp s o.tag cpRefused b)
    | (.ok _ st, b) => (true, endOp s o.tag st b)
  else (true, endOp s o.tag st b)

/-- The outcome of an atomic goes back: to the local operation, or in an ARESP whose result is kept (R340, R364). A
combinable one has been completed by its acknowledgement. -/
def atomReply (e : Env) (f : Frame) (st old : Nat) (b : Body) : Bool × Body :=
  let k := flowKey f.src.toNat f.tc.toNat
  if f.src.toNat = b.coord then
    match b.findTag (headOf f).tag with
    | some (s, o) => atomLand e s o st old b
    | none => (true, b)
  else if f.atom then
    let r := st + old * 2 ^ 64
    let q := f.seq.toNat
    let b := b.modFlow k fun fl => { fl with results := fl.results.set (q % 64) (q, r) }
    (true, sendAresp e k q r b)
  else (true, b)

/-- An atomic request at its final device, before the atomic unit: a remote one's generation, then context and page are
checked (R363, R368, R376). Answers whether the frame is done with. -/
def admitAtom (e : Env) (f : Frame) (b : Body) : Bool × Body :=
  let h := headOf f
  let d := serialDiff h.gen b.gen 16
  let n := if f.opc = 5 then h.count else 1
  let chk := h.genchk && f.src.toNat != b.coord
  if chk && d < 0 then
    if f.opc = 5 || h.comb then
      (true, b.modSite (b.siteOf h.rtile) fun t =>
        { t with cp := { t.cp with staleRx := BitVec.ofNat 32 (min (t.cp.staleRx.toNat + n) (2 ^ 32 - 1)) } })
    else atomReply e f cpStale 0 b
  else if chk && 0 < d then (true, notReady e f 0 b)
  else if !rctxOk b h.rtile h.rctx then atomReply e f cpRefused 0 b
  else
    match sidePlace e (sideOf b h.rtile h.rctx whoInbox none) h.addr (atomSpan f) b with
    | ((some pa, _), b) =>
      (true, { b with dev.fab.atomQ := b.dev.fab.atomQ ++ [{ f := f, aop := h.aop, count := n, pa := pa, waited := false }] })
    | ((none, .stall), b) => (false, b)
    | ((none, .ok _ _), b) => atomReply e f cpMemUe 0 b
    | ((none, .refused), b) => atomReply e f cpRefused 0 b

/-- The oldest job of an AOP that can leave the atomic units leaves them by `run`; one that cannot stays, having waited, and
the next is tried (R369). -/
def atomRow (aop : Nat) (run : AtomJob → Body → Bool × Body) (b : Body) : Body :=
  ((b.dev.fab.atomQ.filter fun j => j.aop == aop && !b.holdOf (headOf j.f).rtile).foldl (fun (found, b) j =>
    if found then (true, b)
    else
      let q := b.dev.fab.atomQ
      let (ok, c) := run j { b with dev.fab.atomQ := q.erase j }
      if ok then (true, applied j.f c)
      else (false, { c with dev.fab.atomQ := mapWhere q (· == j) fun j => { j with waited := true } })) (false, b)).2

/-- The counter of the receiving tile for an applied atomic (R364, R373). -/
def atomTcc (j : AtomJob) (b : Body) : Body := advanceTcc (headOf j.f) j.count b

/-- The read of the target line: may it be used (R276)? -/
def atomLine (e : Env) (j : AtomJob) (b : Body) : Bool × Body := checkLine e (j.pa / 64 * 64) b

/-- An integer atomic (R368): the old value returned, the new one stored. -/
def atom64 (op : AtomJob → Nat → Nat) (e : Env) (j : AtomJob) (b : Body) : Bool × Body :=
  match atomLine e j b with
  | (false, b) => atomReply e j.f cpMemUe 0 b
  | (true, b) =>
    let old := b.mem.num j.pa 8
    match atomReply e j.f cpOk old b with
    | (false, b) => (false, b)
    | (true, b) => (true, atomTcc j (hbmWrite j.pa (leBytes (op j old) 8) b))

/-- FADD32 (R369, R370): the whole frame waits where one of its elements finds no register. -/
def fadd32 (e : Env) (j : AtomJob) (b0 : Body) : Bool × Body :=
  match atomLine e j b0 with
  | (false, b) => atomReply e j.f cpMemUe 0 b
  | (true, b) =>
    let h := headOf j.f
    let r := ((atomPartials j.f).zipIdx).foldl (fun (acc : Option (List (ExactSum × Nat)) × Body) p =>
      match acc with
      | (none, b) => (none, b)
      | (some l, b) =>
        match bindSum (j.pa + 4 * p.2) h.step b with
        | (none, b) => (none, b)
        | (some (x, f), b) =>
          let y := x.merge p.1
          let v := y.value
          (some (l ++ [(y, v.1)]),
           cpFlags (b.siteOf h.rtile) (f ||| v.2 ||| fIf p.1.nanf fNanIn) (putSum y b))) (some [], b)
    match r with
    | (none, _) => (false, b)
    | (some l, b) =>
      -- the unit's own write leaves the registers bound
      let sums := b.dev.fab.sums
      let b := hbmWrite j.pa (l.flatMap fun x => leBytes x.2 4) b
      let b := cpFlags (b.siteOf h.rtile)
        (fIf (j.f.opc = 4 && (atomValues j.f).any fun v => (readElem 1 v).2 != 0#8) fDenorm) { b with dev.fab.sums := sums }
      match atomReply e j.f cpOk 0 b with
      | (_, b) => (true, atomTcc j b)

/-- FMAX32 and FMIN32 (R141, R368). -/
def fext32 (hi : Bool) (e : Env) (j : AtomJob) (b : Body) : Bool × Body :=
  match atomLine e j b with
  | (false, b) => atomReply e j.f cpMemUe 0 b
  | (true, b) =>
    let l := ((atomExtremes j.f).zipIdx).map fun p => fpMinMax hi 1 (b.mem.num (j.pa + 4 * p.2) 4) p.1
    let b := hbmWrite j.pa (l.flatMap fun x => leBytes x.1 4) b
    let b := cpFlags (b.siteOf (headOf j.f).rtile) (l.foldl (fun f x => f ||| x.2.1) 0#8) b
    match atomReply e j.f cpOk 0 b with
    | (_, b) => (true, atomTcc j b)

/-- FADD32. -/
def execFadd32 (s : State) : Host.Outcome State Fault Refusal :=
  bodyStep (fun e b => atomRow 0 (fadd32 e) b) s

/-- FMAX32. -/
def execFmax32 (s : State) : Host.Outcome State Fault Refusal := bodyStep (fun e b => atomRow 1 (fext32 true e) b) s

/-- FMIN32. -/
def execFmin32 (s : State) : Host.Outcome State Fault Refusal := bodyStep (fun e b => atomRow 2 (fext32 false e) b) s

/-- IADD64: wraps modulo 2^64. -/
def execIadd64 (s : State) (clash : List Nat := []) : Host.Outcome State Fault Refusal :=
  clashStep clash (fun e b => atomRow 3 (atom64 (fun j old => old + atomOpnd j.f 0) e) b) s

/-- SWAP64. -/
def execSwap64 (s : State) (clash : List Nat := []) : Host.Outcome State Fault Refusal :=
  clashStep clash (fun e b => atomRow 4 (atom64 (fun j _ => atomOpnd j.f 0) e) b) s

/-- CAS64. -/
def execCas64 (s : State) (clash : List Nat := []) : Host.Outcome State Fault Refusal :=
  clashStep clash (fun e b => atomRow 5 (atom64 (fun j old => if old = atomOpnd j.f 0 then atomOpnd j.f 1 else old) e) b) s

/-- IMAX64: signed. -/
def execImax64 (s : State) (clash : List Nat := []) : Host.Outcome State Fault Refusal :=
  clashStep clash (fun e b => atomRow 6 (atom64 (fun j old => if sInt 64 old < sInt 64 (atomOpnd j.f 0) then atomOpnd j.f 0 else old) e) b) s

/-- IMIN64: signed. -/
def execImin64 (s : State) (clash : List Nat := []) : Host.Outcome State Fault Refusal :=
  clashStep clash (fun e b => atomRow 7 (atom64 (fun j old => if sInt 64 (atomOpnd j.f 0) < sInt 64 old then atomOpnd j.f 0 else old) e) b) s

/-- ASUM_WAIT_TIMEOUT (R369): the oldest FADD32 that waits for a register is dropped and counted. Its requester is
answered, since the spec names no status for it (log entry 43). -/
def asumTimeout (e : Env) (b : Body) : Body :=
  match b.dev.fab.atomQ.find? fun j => j.aop == 0 && j.waited with
  | none => b
  | some j =>
    let b := { b with dev.fab.atomQ := b.dev.fab.atomQ.erase j }
    let b := b.modSite (b.siteOf (headOf j.f).rtile) fun t =>
      { t with cp := { t.cp with asumDrop := BitVec.ofNat 32 (min (t.cp.asumDrop.toNat + j.count) (2 ^ 32 - 1)) } }
    applied j.f (atomReply e j.f cpOk 0 b).2

/-- ASUM_WAIT_TIMEOUT. -/
def execAsumWaitTimeout (s : State) : Host.Outcome State Fault Refusal := bodyStep asumTimeout s

-- Combining (R371 to R374).

/-- Entries of the combining table (R371). -/
def combSlots : Nat := 4096

/-- Do two atomic requests combine (R373)? -/
def sameAtom (f g : Frame) : Bool :=
  let h := headOf f
  let k := headOf g
  (f.opc == 4 || f.opc == 5) && (g.opc == 4 || g.opc == 5) && h.final == k.final && h.rctx == k.rctx && h.addr == k.addr &&
    h.aop == k.aop && atomSpan f == atomSpan g && h.gen == k.gen && h.step == k.step && h.rtile == k.rtile &&
    h.tcc == k.tcc && h.tccen == k.tccen && h.aop ≤ 2

/-- The partials of an entry with those of one more request (R373): the exact sum, or the extreme of R141. -/
def mergeSums (aop : Nat) (l : List ExactSum) (f : Frame) : List ExactSum :=
  if aop = 0 then (l.zip (atomPartials f)).map fun p => p.1.merge p.2
  else (l.zip (atomExtremes f)).map fun p =>
    { p.1 with sum := ((fpMinMax (aop == 1) 1 p.1.sum.toNat p.2).1 : Nat) }

/-- The partials of one request. -/
def firstSums (f : Frame) : List ExactSum :=
  if (headOf f).aop = 0 then atomPartials f
  else (atomExtremes f).map fun v => { ExactSum.empty 0 0 with sum := (v : Nat) }

/-- Contributions that a request carries. -/
def contributions (f : Frame) : Nat := if f.opc = 5 then (headOf f).count else 1

/-- Is an entry's window still open? -/
def CombEntry.open? (x : CombEntry) (b : Body) : Bool := b.dev.ticks ≤ x.tick + x.window

/-- The entry that a request joins, with what it then holds. -/
def joinAtom (f : Frame) (frames : List Frame) (locals : List (Nat × Nat)) (b : Body) : Option Body :=
  if b.dev.fab.comb.any fun x => sameAtom x.open_ f then
    some { b with dev.fab.comb := mapWhere b.dev.fab.comb (fun x => sameAtom x.open_ f) fun x =>
      { x with joined := x.joined ++ frames, locals := x.locals ++ locals, count := x.count + contributions f,
               sums := if x.count = 0 then firstSums f else mergeSums (headOf f).aop x.sums f } }
  else none

/-- A new entry for an atomic (R373): what it holds already, and the frames that brought it. The table may be full. -/
def openAtom (f : Frame) (frames : List Frame) (count : Nat) (sums : List ExactSum) (b : Body) : Option Body :=
  if combSlots ≤ b.dev.fab.comb.length then none
  else some { b with dev.fab.comb := b.dev.fab.comb ++
    [{ open_ := f, tick := b.dev.ticks, window := windowNs (headOf f).cwin, joined := frames, locals := [], count := count,
       sums := sums, pieces := [], ue := false }] }

/-- An atomic request in transit at a combining device (R371, R373). -/
def combineAtom (e : Env) (f : Frame) (b : Body) : Body :=
  let h := headOf f
  match joinAtom f [f] [] b with
  | some b => b
  | none =>
    match openAtom f [f] (contributions f) (firstSums f) b with
    | some b => b
    | none => sendData e (nextHop b h.final) f.tc.toNat false f.payload [] b

/-- The 48 bytes of a partial of an entry. -/
def partBytes (aop : Nat) (x : ExactSum) : List Byte :=
  if aop = 0 then x.bytes else leBytes x.sum.toNat 4 ++ List.replicate 44 0#8

/-- COMBINE_WINDOW_END (R373, R374): one ATOM_PART goes to the next device, where anything was merged. -/
def combineEnd (n : Nat) (e : Env) (b : Body) : Body :=
  match b.dev.fab.comb[n]? with
  | none => b
  | some x =>
    let h := headOf x.open_
    if x.open_.opc != 4 && x.open_.opc != 5 then b
    else
      let b := { b with dev.fab.comb := b.dev.fab.comb.eraseIdx n }
      if x.count = 0 then b else sendData e (nextHop b h.final) x.open_.tc.toNat false
        ({ h with opc := 5, count := x.count, hop := true }.payload (x.sums.flatMap (partBytes h.aop))) x.locals b

/-- COMBINE_WINDOW_END. -/
def execCombineWindowEnd (entry : Nat) (s : State) : Host.Outcome State Fault Refusal := bodyStep (combineEnd entry) s

/-- A request of OPC ATOM or ATOM_PART: at its final device to the atomic unit, elsewhere combined. -/
def atomRequest (e : Env) (f : Frame) (b : Body) : Bool × Body :=
  if (headOf f).hop && (headOf f).final != b.coord then (true, combineAtom e f b) else admitAtom e f b

/-- ATOM (R373). -/
def execAtom (s : State) : Host.Outcome State Fault Refusal := bodyStep (fun e b => serveInbox 4 (atomRequest e) b) s

/-- ATOM_PART (R373). -/
def execAtomPart (s : State) : Host.Outcome State Fault Refusal := bodyStep (fun e b => serveInbox 5 (atomRequest e) b) s

/-- The data of an ATOMIC: OPND1, OPND2 and the FP32 values. -/
def CpOp.atomData (o : CpOp) (vals : List Byte) : List Byte := leBytes (o.d 320 64) 8 ++ leBytes (o.d 384 64) 8 ++ vals

/-- An ATOMIC with its operands read (R364, R373): local ones go to the atomic unit; a combinable one joins an entry, or
leaves for the next device and opens one for what the device issues or passes on within its window (R374); any other goes to
its target, to be answered. -/
def sendAtomic (e : Env) (s : Nat) (o : CpOp) (vals : List Byte) (b : Body) : Body :=
  let h := o.head b 4 1 o.raddr
  let data := o.atomData vals
  let f := newFrame b 1 o.rdev o.tc (!o.comb) ({ h with hop := o.comb }.payload data)
  if o.isLocal b then
    match admitAtom e f b with
    | (true, b) => issued s o.tag b
    | (false, b) => b
  else if o.comb then
    match joinAtom f [] [(s, o.tag)] b with
    | some b => issued s o.tag (b.modOp s o.tag fun x => { x with await_ := x.await_ + 1 })
    | none =>
      let b := (openAtom f [] 0 [] b).getD b
      issued s o.tag (sendOp e s o { h with hop := true } (nextHop b o.rdev) false data b)
  else issued s o.tag (sendOp e s o h o.rdev true data b)

/-- ATOMIC (R364, R368). -/
def atomic (s tag : Nat) (e : Env) (b : Body) : Body :=
  match pendingOp b s tag 3 false with
  | none => b
  | some o =>
    if o.atom64 then sendAtomic e s o [] b
    else match sideRead e (o.here s) o.laddr (4 * o.nelem) b with
      | (.stall, b) => b
      | (.refused, b) => endOp s tag cpRefused b
      | (.ok v st, b) => if st = cpOk then sendAtomic e s o v b else endOp s tag st b

/-- ATOMIC. -/
def execAtomic (site tag : Nat) (s : State) : Host.Outcome State Fault Refusal := bodyStep (atomic site tag) s

end Sys2Proof.Machine
end

