-- ==== Sys2Proof/Machine/Branch.lean ====
section
/-! DEFINITION. Branches with their delay slot (R175, R176, R180) and the hardware loop (R177, R179). -/
namespace Sys2Proof.Machine

/-- A place that takes neither a delay slot nor the end of a loop body (R176, R181). -/
def branchPlace : Place := { slot := false, last := false }

/-- A branch: its target as an unbounded integer, whether it is taken, and the register its link goes to. A taken
branch to no word-aligned address below 2^21 raises FETCH at the branch (R175). -/
def branchRow (site word : Nat) (pre : CoreSt → Option Nat) (taken : CoreSt → Bool) (target : CoreSt → Int)
    (link : Option RegNo) (e : Env) (b : Body) : Body :=
  coreGo e site word branchPlace pre (fun b =>
    let c := (b.site site).core
    let t := target c
    if taken c && (t < 0 || 2 ^ 21 ≤ t || t % 4 != 0) then .exc 0x01 (uBits 64 t) b
    else
      let d : DelaySlot :=
        { branch := c.pc, target := BitVec.ofInt 21 t, taken := taken c, link := link.map fun r => (r, c.getX r),
          shOld := c.shOld, shLeft := c.shLeft }
      let c' := match link with | some r => c.setX r (BitVec.ofNat 64 (c.pc.toNat + 8)) | none => c
      .branch (b.modSite site fun u => { u with core := c' }) d) b

/-- A conditional branch: target is its own address + 4 × OFF (R175). -/
def condBranch (major : Nat) (cond : Word64 → Word64 → Bool) (site : Nat) (rs1 rs2 : RegNo) (off : BitVec 16)
    (e : Env) (b : Body) : Body :=
  branchRow site (major * 2 ^ 26 + rs1.toNat * 2 ^ 21 + rs2.toNat * 2 ^ 16 + off.toNat) (fun _ => none)
    (fun c => cond (c.getX rs1) (c.getX rs2)) (fun c => c.pc.toNat + 4 * off.toInt) none e b

/-- BREQ (R170). -/
def execBreq (site : Nat) (rs1 rs2 : RegNo) (off : BitVec 16) (s : State) : Host.Outcome State Fault Refusal :=
  bodyStep (condBranch 0x18 (fun a b => a == b) site rs1 rs2 off) s

/-- BRNE (R170). -/
def execBrne (site : Nat) (rs1 rs2 : RegNo) (off : BitVec 16) (s : State) : Host.Outcome State Fault Refusal :=
  bodyStep (condBranch 0x19 (fun a b => a != b) site rs1 rs2 off) s

/-- BRLT (R170). -/
def execBrlt (site : Nat) (rs1 rs2 : RegNo) (off : BitVec 16) (s : State) : Host.Outcome State Fault Refusal :=
  bodyStep (condBranch 0x1A (fun a b => a.slt b) site rs1 rs2 off) s

/-- BRGE (R170). -/
def execBrge (site : Nat) (rs1 rs2 : RegNo) (off : BitVec 16) (s : State) : Host.Outcome State Fault Refusal :=
  bodyStep (condBranch 0x1B (fun a b => !a.slt b) site rs1 rs2 off) s

/-- BRLTU (R170). -/
def execBrltu (site : Nat) (rs1 rs2 : RegNo) (off : BitVec 16) (s : State) : Host.Outcome State Fault Refusal :=
  bodyStep (condBranch 0x1C (fun a b => a.ult b) site rs1 rs2 off) s

/-- BRGEU (R170). -/
def execBrgeu (site : Nat) (rs1 rs2 : RegNo) (off : BitVec 16) (s : State) : Host.Outcome State Fault Refusal :=
  bodyStep (condBranch 0x1D (fun a b => !a.ult b) site rs1 rs2 off) s

/-- A J-form jump (R175). -/
def jumpRow (major : Nat) (link : Option RegNo) (site : Nat) (off : BitVec 26) (e : Env) (b : Body) : Body :=
  branchRow site (wordJ major off) (fun _ => none) (fun _ => true) (fun c => c.pc.toNat + 4 * off.toInt) link e b

/-- JMP (R170). -/
def execJmp (site : Nat) (off : BitVec 26) (s : State) : Host.Outcome State Fault Refusal :=
  bodyStep (jumpRow 0x1E none site off) s

/-- CALL (R170): the link goes to x31. -/
def execCall (site : Nat) (off : BitVec 26) (s : State) : Host.Outcome State Fault Refusal :=
  bodyStep (jumpRow 0x1F (some 31) site off) s

/-- JMPR (R170): to rs1; the link goes to rd unless it is x0; RS2 and FUNC must be 0. -/
def execJmpr (site : Nat) (rd rs1 rs2 : RegNo) (func : BitVec 11) (s : State) : Host.Outcome State Fault Refusal :=
  bodyStep (branchRow site (wordR 0x20 rd rs1 rs2 func.toNat) (fun _ => illegalIf (rs2 != 0 || func != 0))
    (fun _ => true) (fun c => (c.getX rs1).toNat) (if rd = 0 then none else some rd)) s

/-- LOOP (R177, R179): ILLEGAL for a reserved bit, END = 0, an active level, or level 0 under an active level 1;
LOOP_FORM for level 1 reaching beyond an active level 0. A count of 0 continues after the body. -/
def loopRow (site : Nat) (rs : RegNo) (rsv : BitVec 4) (lvl : Bool) (fin : BitVec 16) (e : Env) (b : Body) : Body :=
  let word := 0x21 * 2 ^ 26 + rs.toNat * 2 ^ 21 + rsv.toNat * 2 ^ 17 + b2n lvl * 2 ^ 16 + fin.toNat
  coreGo e site word branchPlace
    (fun c =>
      let l := c.loops
      illegalIf (rsv != 0 || fin = 0 || (if lvl then l.l1.active else l.l0.active || l.l1.active)))
    (fun b =>
      let c := (b.site site).core
      let l := c.loops
      let fin' := c.pc.toNat + 4 * fin.toNat
      if lvl && l.l0.active && l.l0.le.toNat < fin' then .exc 0x04 word b
      else
        let r : LoopReg := { lc := (c.getX rs).truncate 32, ls := c.pc + 4, le := BitVec.ofNat 21 fin' }
        let c' := c.setLoops (if lvl then { l with l1 := r } else { l with l0 := r })
        .doneAt (b.modSite site fun t => { t with core := c' }) (if r.active then r.ls else r.le + 4)) b

/-- LOOP. -/
def execLoop (site : Nat) (rs : RegNo) (rsv : BitVec 4) (lvl : Bool) (fin : BitVec 16) (s : State) :
    Host.Outcome State Fault Refusal := bodyStep (loopRow site rs rsv lvl fin) s

end Sys2Proof.Machine
end

