-- ==== Sys2Proof/Machine/Pager.lean ====
section
/-! DEFINITION. The pager: faults (R285), directives and page moves (R286 to R292), frames and budgets (R290), and
protection changes (R293 to R296, R302). -/
namespace Sys2Proof.Machine

/-- The pager changed. -/
def Body.modPg (b : Body) (f : Pager → Pager) : Body := { b with dev.pg := f b.dev.pg }

/-- A register command of context q: by host privilege, the MP, or the function of squad q; any other agent's write is
ignored and records a CSR access error. -/
def ctxCommand (e : Env) (ag : Agent) (q r : Nat) (b b' : Body) : Body :=
  if 8 ≤ q then b else if mayCommand b ag q then b' else csrError e ag (oPgCtx q r) b

-- Faults (R285).

/-- The oldest fault record of a context resolved; one that waited becomes a record and is posted. -/
def popFault (q : Nat) (b : Body) : Body :=
  let l := (b.dev.pg.faults.get [] q).tail
  match b.dev.pg.extra.get [] q with
  | [] => b.modPg fun p => { p with faults := p.faults.set q l }
  | x :: r => (b.modPg fun p => { p with faults := p.faults.set q (l ++ [x]), extra := p.extra.set q r }).raiseSquad q 2

/-- Does the core of a site stall on a page of context q? -/
def coreStalls (b : Body) (q page s : Nat) : Bool :=
  match (b.site s).core.mstall with
  | some m => m.paged && b.squadAt s == some q && m.addr.toNat >>> 21 == page
  | none => false

/-- FAULT_RETRY (R285): every stalled requester of the oldest record's page is translated again. -/
def faultRetry (e : Env) (q : Nat) (b : Body) : Body :=
  match b.dev.pg.faults.get [] q with
  | [] => b
  | r :: _ =>
    let b := (popFault q b).modPg fun p => { p with stalls := p.stalls.filter fun k => k.2 != (q, r.page) }
    overList ((List.range 408).filter (coreStalls b q r.page)) (retryMem e) b

/-- FAULT_FAIL (R285): every stalled requester of the page is refused (R168, R284). -/
def faultFail (e : Env) (q : Nat) (b : Body) : Body :=
  match b.dev.pg.faults.get [] q with
  | [] => b
  | r :: _ =>
    let b := (popFault q b).modPg fun p =>
      { p with stalls := p.stalls.filter (fun k => k.2 != (q, r.page)),
               failed := p.failed ++ p.stalls.filter (fun k => k.2 == (q, r.page)) }
    overList ((List.range 408).filter (coreStalls b q r.page)) (fun s b =>
      match (b.site s).core.mstall with
      | some m => takeExc e s 0x07 m.addr.toNat (b.modSite s fun t => { t with core := { t.core with mstall := none } })
      | none => b) b

/-- FAULT_RETRY. -/
def execFaultRetry (ag : Agent) (q : Nat) (s : State) : Host.Outcome State Fault Refusal :=
  bodyStep (fun e b => ctxCommand e ag q 7 b (faultRetry e q b)) s

/-- FAULT_FAIL. -/
def execFaultFail (ag : Agent) (q : Nat) (s : State) : Host.Outcome State Fault Refusal :=
  bodyStep (fun e b => ctxCommand e ag q 7 b (faultFail e q b)) s

-- Frames (R289, R290).

/-- The entries of a table in HBM that are not zero, with their places. -/
def tableEntries (b : Body) (table : Nat) : List (Nat × Nat) :=
  ((b.mem.slice table 4096).map (·.1 / 8)).eraseDups.filterMap fun i =>
    let w := b.mem.num (table + 8 * i) 8
    if w = 0 then none else some (i, w)

/-- The leaves of context q: their VA, entry, and whether they map 1 GiB (R280). -/
def ctxLeaves (b : Body) (q : Nat) : List (Nat × Nat × Bool) :=
  let root := b.eff (oPgCtx q 0)
  if !bitOf root 0 then []
  else (tableEntries b (entryAddr root)).flatMap fun (i, w0) =>
    if !tableOk w0 then []
    else (tableEntries b (entryAddr w0)).flatMap fun (j, w1) =>
      if tableOk w1 then (tableEntries b (entryAddr w1)).map fun (k, w2) => (i * 2 ^ 39 + j * 2 ^ 30 + k * 2 ^ 21, w2, false)
      else [(i * 2 ^ 39 + j * 2 ^ 30, w1, true)]

/-- The tables of context q. -/
def ctxTables (b : Body) (q : Nat) : List Nat :=
  let root := b.eff (oPgCtx q 0)
  if !bitOf root 0 then []
  else entryAddr root :: (tableEntries b (entryAddr root)).flatMap fun (_, w0) =>
    if !tableOk w0 then []
    else entryAddr w0 :: (tableEntries b (entryAddr w0)).filterMap fun (_, w1) => if tableOk w1 then some (entryAddr w1) else none

/-- PG_RESIDENT.PAGES of context q: HBM pages held, those on their way to HBM included (R290, R303). -/
def residentPages (b : Body) (q : Nat) : Nat :=
  ((ctxLeaves b q).map fun (_, w, big) => if entryKind w = 1 then (if big then 512 else 1) else 0).sum +
    (b.dev.pg.moves.filter fun m => m.q == q && m.toHbm).length

/-- The 2 MiB frames of HBM that a context maps, a move uses, or a table lies in. -/
def usedFrames (b : Body) : List Nat :=
  (List.range 8).flatMap (fun q =>
    (ctxLeaves b q).flatMap (fun (_, w, big) =>
      if entryAddr w < hbmTop && (entryKind w == 1 || entryKind w == 3) then
        (List.range (if big then 512 else 1)).map (· + entryAddr w / 0x20_0000)
      else []) ++ (ctxTables b q).map (· / 0x20_0000)) ++
  b.dev.pg.moves.map fun m => (if m.toHbm then m.dst else m.src) / 0x20_0000

/-- 2 MiB frames of HBM (R272). -/
def hbmFrames : Nat := 393216

/-- A free frame of HBM (R290). Which one is open: it is the first free one from a free place on. -/
def takeFrame (b : Body) : Option Nat × Body :=
  let used := usedFrames b
  let (n, b) := b.freshBelow hbmFrames
  ((((List.range (used.length + 1)).map fun i => (n + i) % hbmFrames).find? fun f => !used.contains f).map (· * 0x20_0000), b)

/-- A free frame of a host pool (R289, R302). Which one is open. -/
def takeHostFrame (p : Nat) (b : Body) : Option Nat × Body :=
  let n := b.field (oPgPoolSize p) 0 24
  let free := b.field (oPgPoolSize p) 24 24
  let base := b.field (oPgPoolBase p) 21 26 * 0x20_0000
  if n = 0 || free = 0 then (none, b)
  else
    let (k, b) := b.freshBelow n
    match ((List.range n).map fun i => base + (k + i) % n * 0x20_0000).find? fun f => !b.dev.pg.hostUsed.contains f with
    | none => (none, b)
    | some f => (some f, (b.setField (oPgPoolSize p) 24 24 (free - 1)).modPg fun p => { p with hostUsed := p.hostUsed ++ [f] })

/-- A frame returns to its pool (R288, R289); an HBM frame is free once nothing maps it. -/
def returnFrame (pa : Nat) (b : Body) : Body :=
  if b.dev.pg.hostUsed.contains pa then
    let p := if pa < 0x6000_0000_0000 then 0 else 1
    (b.setField (oPgPoolSize p) 24 24 (b.field (oPgPoolSize p) 24 24 + 1)).modPg fun p => { p with hostUsed := p.hostUsed.erase pa }
  else b

/-- A page-table entry written; a LOST stack takes nothing (R276, R282). -/
def putEntry (ea w : Nat) (b : Body) : Body := hbmWrite ea (leBytes w 8) b

/-- An entry with another KIND and ADDR (R281). -/
def entryWith (w kind addr : Nat) : Nat := putBits (putBits w 0 3 kind) 12 40 (addr / 4096)

/-- A frame that reads zero; what lies in a LOST stack stays (R276). -/
def zeroFrame (pa : Nat) (b : Body) : Body :=
  let keeps := fun a => a < pa || pa + 0x20_0000 ≤ a || stackLost b (hbmPlace a).1
  { b with mem := b.mem.filter fun c => keeps c.1, dev.poison := b.dev.poison.filter keeps }

-- Directives (R286 to R292).

/-- The directive in progress or at the head of a ring. -/
def Body.dir (b : Body) (q : Nat) : Option Dir := b.dev.pg.dirs.get none q

/-- It changed. -/
def Body.modDir (b : Body) (q : Nat) (f : Dir → Dir) : Body :=
  b.modPg fun p => { p with dirs := p.dirs.set q ((p.dirs.get none q).map f) }

/-- VA of the slot at the ring head of context q (R286, R303). -/
def dirSlotVa (b : Body) (q : Nat) : Nat := b.field (oPgCtx q 3) 5 43 * 32 + 32 * b.field (oPgCtx q 5) 32 12

/-- The pager reads the slot at the ring head (R287); an empty one is looked at again by DIR_POLL. -/
def dirLook (e : Env) (q : Nat) (b : Body) : Body :=
  if (b.dir q).isSome || b.retired then b
  else match vaRead e q (whoRing q) (dirSlotVa b q) 32 b with
    | (.ok v, b) =>
      let w := ofBytes v
      if bitOf w 255 then b.modPg fun p =>
        { p with dirs := p.dirs.set q (some { slot := b.field (oPgCtx q 5) 32 12, rcd := w, started := false, todo := [],
                                              budgetWait := false, status := 0, result := false }) }
      else b
    | (_, b) => b

/-- PG_DIR_KICK. -/
def execPgDirKick (ag : Agent) (q : Nat) (s : State) : Host.Outcome State Fault Refusal :=
  bodyStep (fun e b => ctxCommand e ag q 4 b (dirLook e q b)) s

/-- DIR_POLL (R287): the 1 µs have passed (log entry 8). -/
def dirPoll (q : Nat) (e : Env) (b : Body) : Body := if q < 8 then dirLook e q b else b

/-- DIR_POLL. -/
def execDirPoll (q : Nat) (s : State) : Host.Outcome State Fault Refusal := bodyStep (dirPoll q) s

/-- OP of a directive (R286). -/
def Dir.op (d : Dir) : Nat := bitsOf d.rcd 0 4

/-- The pages of a directive. -/
def Dir.pages (d : Dir) : List Nat := (List.range (bitsOf d.rcd 128 24)).map fun i => bitsOf d.rcd 64 48 + 0x20_0000 * i

/-- An encoding that completes with BAD whatever the pages are (R286, R288). -/
def Dir.bad (d : Dir) : Bool :=
  !(1 ≤ d.op && d.op ≤ 6) || bitsOf d.rcd 4 4 != 0 || bitsOf d.rcd 23 9 != 0 || bitsOf d.rcd 64 21 != 0 ||
  bitsOf d.rcd 112 16 != 0 || bitsOf d.rcd 152 8 != 0 || bitsOf d.rcd 176 79 != 0 || bitsOf d.rcd 128 24 == 0 ||
  384 ≤ bitsOf d.rcd 160 16 || 2 ^ 48 < bitsOf d.rcd 64 48 + 0x20_0000 * bitsOf d.rcd 128 24

/-- STATUS that one page gives a directive: OK, BAD, NOTMAPPED or PINNED (R288). -/
def pageStatus (op : Nat) (l : Leaf) : Nat :=
  let res := l.kind == .hbm || l.kind == .host
  let pin := entryPin l.entry
  if l.big || l.kind == .noTable || l.kind == .bad || l.kind == .refused then 1
  else match op with
    | 1 => if res then 0 else 2
    | 2 => if !res then 2 else if pin then 3 else 0
    | 3 => if res || (l.kind == .absent && entryW l.entry) then 0 else 2
    | 4 => if !res then 2 else if pin then 3 else 0
    | 5 => if l.kind != .hbm then 2 else if pin then 3 else 0
    | _ => if l.kind == .hbm && entryRg l.entry then 0 else 2

/-- DIRECTIVE_START (R287, R288): at its kickoff, unless a page of the range is IN_TRANSIT. -/
def directiveStart (q : Nat) (e : Env) (b : Body) : Body :=
  match b.dir q with
  | none => b
  | some d =>
    let k := bitsOf d.rcd 32 32
    let koen := bitOf d.rcd 16
    if 8 ≤ q || d.started || b.retired || (koen && !kickDue e.now k) then b
    else
      let ls := if d.bad then [] else d.pages.map (walk b q)
      if ls.any (·.kind == .transit) then b
      else
        let b := if koen && kickLate e.now k then b.setField (oPgCtx q 5) 5 1 1 else b
        let b := if koen then b.launchAt e k else b
        let st := if d.bad then 1 else ((ls.map (pageStatus d.op)).find? (· != 0)).getD 0
        b.modDir q fun d => { d with started := true, status := st, todo := if st = 0 then d.pages else [] }

/-- DIRECTIVE_START. -/
def execDirectiveStart (q : Nat) (s : State) : Host.Outcome State Fault Refusal := bodyStep (directiveStart q) s

/-- Is a directive of context q under way with this OP and pages left to act on? -/
def dirActive (b : Body) (q op : Nat) : Bool :=
  match b.dir q with
  | some d => q < 8 && d.started && d.op == op && d.status == 0
  | none => false

/-- The page is done. -/
def dirNext (q : Nat) (b : Body) : Body := b.modDir q fun d => { d with todo := d.todo.tail, budgetWait := false }

/-- The page waits on budget or pool (R290). -/
def dirWait (q : Nat) (b : Body) : Body := b.modDir q fun d => { d with budgetWait := true }

/-- Does the budget of context q allow one more page (R290)? -/
def budgetOk (b : Body) (q : Nat) : Bool := residentPages b q + 1 ≤ b.field (oPgCtx q 1) 0 24

/-- The stops that hold translations: the 408 mesh stops, then the twelve update units (R283, R289). -/
def invalStops : List Nat := List.range 420

/-- A move starts: the page is IN_TRANSIT, and its translations are to be acknowledged (R289). -/
def startMove (q va dst : Nat) (toHbm : Bool) (l : Leaf) (b : Body) : Body :=
  let m : Move := { q := q, va := va, entry := l.entry, src := entryAddr l.entry, dst := dst, toHbm := toHbm, waitAcks := invalStops }
  putEntry l.ea (entryWith l.entry 3 dst) (b.modPg fun p => { p with moves := p.moves ++ [m] })

/-- May a move of the page start: fewer than 16 run, and no bump waits on its entry (R289, R294)? -/
def moveRoom (b : Body) (l : Leaf) : Bool :=
  b.dev.pg.moves.length < 16 && !(b.dev.pg.bumping && b.dev.pg.staged.any (·.1 == l.ea))

/-- The port whose host window holds a physical address (R37, R281). -/
def portOf (pa : Nat) : Nat := if pa < 0x6000_0000_0000 then 0 else 1

/-- Has the host pool of a port a free frame (R290, R302)? -/
def poolHas (b : Body) (p : Nat) : Bool := b.field (oPgPoolSize p) 24 24 != 0

/-- FETCH of pages in rising order, as far as moves, budget and frames allow (R288 to R290). A page with PIN is never moved
(R281): it stays where it is (log entry 64). -/
def fetchPages (q : Nat) : List Nat → Body → Body
  | [], b => b
  | va :: r, b =>
    let l := walk b q va
    if l.kind == .hbm || (l.kind == .host && entryPin l.entry) then fetchPages q r (dirNext q b)
    else if l.kind != .host || !moveRoom b l then b
    else if !budgetOk b q || !poolHas b (portOf (entryAddr l.entry)) then dirWait q b
    else match takeFrame b with
      | (none, _) => dirWait q b
      | (some f, b) => fetchPages q r (dirNext q (startMove q va f true l b))

/-- OFFLOAD of pages in rising order (R288, R289): VA[21] chooses the port and its pool. -/
def offloadPages (q : Nat) : List Nat → Body → Body
  | [], b => b
  | va :: r, b =>
    let l := walk b q va
    if l.kind == .host then offloadPages q r (dirNext q b)
    else if l.kind != .hbm || !moveRoom b l then b
    else match takeHostFrame (bitsOf va 21 1) b with
      | (none, _) => dirWait q b
      | (some f, b) => offloadPages q r (dirNext q (startMove q va f false l b))

/-- ALLOC of pages in rising order (R288, R290); the port of a page is the one that VA[21] chooses (R289). -/
def allocPages (q : Nat) : List Nat → Body → Body
  | [], b => b
  | va :: r, b =>
    let l := walk b q va
    if l.kind != .absent then allocPages q r (dirNext q b)
    else if !budgetOk b q || !poolHas b (bitsOf va 21 1) then dirWait q b
    else match takeFrame b with
      | (none, _) => dirWait q b
      | (some f, b) => allocPages q r (dirNext q (putEntry l.ea (entryWith l.entry 1 f) (zeroFrame f b)))

/-- One page freed: ABSENT with W kept, its frame returned (R288). -/
def freePage (q va : Nat) (b : Body) : Body :=
  let l := walk b q va
  returnFrame (entryAddr l.entry) (putEntry l.ea (b2n (entryW l.entry) * 8) b)

/-- RG set on a page (R291). -/
def keepPage (q va : Nat) (b : Body) : Body :=
  let l := walk b q va
  putEntry l.ea (putBits l.entry 4 1 1) b

/-- Every page left, then none. -/
def eachPage (q : Nat) (f : Nat → Body → Body) (b : Body) : Body :=
  match b.dir q with
  | none => b
  | some d => (overList d.todo f b).modDir q fun d => { d with todo := [] }

/-- RETAIN decides once for its range (R291). -/
def retainPages (q : Nat) (b : Body) : Body :=
  let keep := residentPages b q + b.field (oPgCtx q 1) 32 24 ≤ b.field (oPgCtx q 1) 0 24
  (eachPage q (if keep then keepPage q else freePage q) b).modDir q fun d => { d with result := keep }

/-- The action of the directive in progress, as far as it can go (R288). -/
def dirAct (q : Nat) (b : Body) : Body :=
  match b.dir q with
  | none => b
  | some d =>
    match d.op with
    | 1 => fetchPages q d.todo b
    | 2 => offloadPages q d.todo b
    | 3 => allocPages q d.todo b
    | 4 | 6 => eachPage q (freePage q) b
    | _ => if d.todo = [] then b else retainPages q b

/-- The row of one OP. -/
def dirRow (op q : Nat) (_ : Env) (b : Body) : Body := if dirActive b q op then dirAct q b else b

/-- DIR_FETCH. -/
def execDirFetch (q : Nat) (s : State) : Host.Outcome State Fault Refusal := bodyStep (dirRow 1 q) s
/-- DIR_OFFLOAD. -/
def execDirOffload (q : Nat) (s : State) : Host.Outcome State Fault Refusal := bodyStep (dirRow 2 q) s
/-- DIR_ALLOC. -/
def execDirAlloc (q : Nat) (s : State) : Host.Outcome State Fault Refusal := bodyStep (dirRow 3 q) s
/-- DIR_FREE. -/
def execDirFree (q : Nat) (s : State) : Host.Outcome State Fault Refusal := bodyStep (dirRow 4 q) s
/-- DIR_RETAIN. -/
def execDirRetain (q : Nat) (s : State) : Host.Outcome State Fault Refusal := bodyStep (dirRow 5 q) s
/-- DIR_RELEASE. -/
def execDirRelease (q : Nat) (s : State) : Host.Outcome State Fault Refusal := bodyStep (dirRow 6 q) s

/-- Does a stop still have an access in flight to the frame that a move leaves (R289)? -/
def stopBusy (b : Body) (stop src : Nat) : Bool :=
  b.dev.held.any fun h => h.r.src == stop && match h.r.dst with
    | .phys pa => src ≤ pa && pa < src + 0x20_0000
    | .tile _ _ => false

/-- The first element that satisfies `p` changed. -/
def mapFirst {α : Type} (p : α → Bool) (f : α → α) : List α → List α
  | [] => []
  | x :: r => if p x then f x :: r else x :: mapFirst p f r

/-- TRANSLATION_INVAL_ACK (R289): the oldest move of the context that waits for the stop gets its acknowledgement. -/
def invalAck (q stop : Nat) (_ : Env) (b : Body) : Body :=
  b.modPg fun p => { p with
    moves := mapFirst (fun m => m.q == q && m.waitAcks.contains stop && !stopBusy b stop m.src)
      (fun m => { m with waitAcks := m.waitAcks.erase stop }) p.moves }

/-- TRANSLATION_INVAL_ACK. -/
def execTranslationInvalAck (q stop : Nat) (s : State) : Host.Outcome State Fault Refusal := bodyStep (invalAck q stop) s

/-- A move fails: the page returns to its source state, the destination frame to its pool, and the directive stops with
a status (R276, R289). -/
def failMove (m : Move) (st : Nat) (b : Body) : Body :=
  (returnFrame m.dst (putEntry (walk b m.q m.va).ea m.entry b)).modDir m.q fun d =>
    { d with status := if d.status = 0 then st else d.status, todo := [] }

/-- Is a packet of a page move discarded on the mesh (R276, R435)? One read and its answer are checked for each 4 KiB block
in HBM, which one channel serves (R273). -/
def moveLost (e : Env) (pa : Nat) (b : Body) : Bool × Body :=
  if !armedClass b 6 then (false, b)
  else (List.range 512).foldl (fun (bad, b) i =>
    let z : Stop := .channel (channelSite (pa + 4096 * i))
    let (x, b) := meshLost e .west z b
    let (y, b) := meshLost e z .west b
    (bad || x || y, b)) (false, b)

/-- The end of a move whose transfer through the host window succeeded: the page in HBM meets LOST stacks, poison and the
mesh (R276, R289, R435). -/
def finishMove (e : Env) (m : Move) (b : Body) : Body :=
  let ea := (walk b m.q m.va).ea
  let page := 0x20_0000
  let (lost, b) := moveLost e (if m.toHbm then m.dst else m.src) b
  if m.toHbm then
    if lost || meetsLost m.dst page b then failMove m 5 b
    else
      let b := zeroFrame m.dst b
      returnFrame m.src (putEntry ea (entryWith m.entry 1 m.dst) { b with mem := b.mem.paste m.dst page (b.mem.slice m.src page) })
  else
    let (bad, b) := checkLines e m.src page b
    if lost || bad != [] then failMove m 5 b
    else putEntry ea (entryWith m.entry 2 m.dst) { b with mem := b.mem.paste m.dst page (b.mem.slice m.src page) }

/-- PAGE_MOVE_DONE (R289): the oldest move of the context whose acknowledgements are all in ends; `hostOk` is whether
its transfer through the host window succeeded. A link that is down fails it with an address error (R38). -/
def pageMoveDone (q : Nat) (hostOk : Bool) (e : Env) (b : Body) : Body :=
  match b.dev.pg.moves.find? fun m => m.q == q && m.waitAcks == [] with
  | none => b
  | some m =>
    let b := b.modPg fun p => { p with moves := p.moves.erase m }
    let far := if m.toHbm then m.src else m.dst
    let up := hostUp b (portOf far)
    let b := if up then b else addrError e 7 far b
    retryPaged e (if hostOk && up then finishMove e m b else failMove m 4 b)

/-- PAGE_MOVE_DONE. -/
def execPageMoveDone (q : Nat) (hostOk : Bool) (s : State) : Host.Outcome State Fault Refusal := bodyStep (pageMoveDone q hostOk) s

/-- BUDGET_WAIT_END (R290): the directive goes on where its page can have a frame. -/
def budgetWaitEnd (q : Nat) (_ : Env) (b : Body) : Body :=
  match b.dir q with
  | some d => if q < 8 && d.budgetWait then dirAct q b else b
  | none => b

/-- BUDGET_WAIT_END. -/
def execBudgetWaitEnd (q : Nat) (s : State) : Host.Outcome State Fault Refusal := bodyStep (budgetWaitEnd q) s

/-- The record of a completed directive: STATUS, for RETAIN RESULT, and VALID clear (R292). -/
def Dir.done (d : Dir) : Nat :=
  let w := putBits (putBits d.rcd 8 8 d.status) 255 1 0
  if d.op = 5 then putBits w 22 1 (b2n d.result) else w

/-- The slot's first and last bytes written with a completed record, the bytes between them left (R292). -/
def closeSlot (e : Env) (q va w : Nat) (b : Body) : VaAcc × Body :=
  match vaWrite e q (whoRing q) va (leBytes w 3) b with
  | (.ok _, b) => vaWrite e q (whoRing q) (va + 31) (leBytes (w >>> 248) 1) b
  | r => r

/-- DIRECTIVE_COMPLETE (R292): once every page and every move of the context is done. -/
def directiveComplete (q : Nat) (e : Env) (b : Body) : Body :=
  match b.dir q with
  | none => b
  | some d =>
    if 8 ≤ q || !d.started || d.todo != [] || b.dev.pg.moves.any (·.q == q) then b
    else match closeSlot e q (dirSlotVa b q) d.done b with
      | (.stall, b) => b
      | (_, b) =>
        let tile := bitsOf d.rcd 160 16
        let b := if bitOf d.rcd 17 && tile < 384 then b.advanceTile tile (bitsOf d.rcd 18 4) else b
        let b := b.setField (oPgCtx q 5) 32 12 ((d.slot + 1) % 2 ^ b.field (oPgCtx q 3) 60 4)
        b.modPg fun p => { p with dirs := p.dirs.set q none }

/-- DIRECTIVE_COMPLETE. -/
def execDirectiveComplete (q : Nat) (s : State) : Host.Outcome State Fault Refusal := bodyStep (directiveComplete q) s

-- Protection changes (R293 to R296).

/-- Is it a protection register (R293, R351, R469)? -/
def isProtection (o : Nat) : Bool :=
  (0x401000 ≤ o && o < 0x401800 && o % 0x100 == 0) || (oRtr 0x80 ≤ o && o < oRtr 0xC0 && o % 8 == 0) ||
  (oFb 8 0x100 ≤ o && o < oFb 8 0x180 && o % 8 == 0) || (oFb 9 0x100 ≤ o && o < oFb 9 0x180 && o % 8 == 0) ||
  (oSqTile 0 ≤ o && o < oSqTile 384 && o % 8 == 0)

/-- STAGE_APPEND (R293). -/
def stageAppend (e : Env) (ag : Agent) (v : Nat) (b : Body) : Body :=
  if !mayWrite ag oPgStageData then csrError e ag oPgStageData b
  else if 256 ≤ b.dev.pg.staged.length || bitsOf v 0 3 == 3 || bitOf v 4 then
    csrError e ag oPgStageData (b.setField oPgStat 18 1 1)
  else b.modPg fun p => { p with staged := p.staged ++ [(b.field oPgStageAddr 3 49 * 8, v)] }

/-- STAGE_APPEND. -/
def execStageAppend (ag : Agent) (v : Word64) (s : State) : Host.Outcome State Fault Refusal :=
  bodyStep (fun e b => stageAppend e ag v.toNat b) s

/-- PROT_REG_WRITE (R293): held until the next bump; the register reads the held value. -/
def protRegWrite (e : Env) (ag : Agent) (o v : Nat) (b : Body) : Body :=
  if !isProtection o then b
  else if !mayWrite ag o then csrError e ag o b
  else match regSpec o with
    | none => b
    | some r =>
      let w := r.apply (b.csr o) v
      if !encodingOk o w then csrError e ag o b
      else (b.putCsr o w).modPg fun p => { p with heldRegs := if p.heldRegs.contains o then p.heldRegs else p.heldRegs ++ [o] }

/-- PROT_REG_WRITE. -/
def execProtRegWrite (ag : Agent) (off : Nat) (v : Word64) (s : State) : Host.Outcome State Fault Refusal :=
  bodyStep (fun e b => protRegWrite e ag off v.toNat b) s

/-- The stage discarded: pairs and held register values (R294). -/
def dropStage (b : Body) : Body :=
  (overList b.dev.pg.heldRegs (fun o b => b.putCsr o (b.eff o)) b).modPg fun p => { p with staged := [], heldRegs := [] }

/-- BUMP (R294); a second one while BUMPING does nothing (R15). -/
def bump (e : Env) (ag : Agent) (b : Body) : Body :=
  if !mayWrite ag oPgCtl then csrError e ag oPgCtl b
  else if b.dev.pg.bumping then b
  else if b.flag oPgStat 18 then csrError e ag oPgCtl (dropStage b)
  else b.modPg fun p => { p with bumping := true }

/-- BUMP. -/
def execBump (ag : Agent) (s : State) : Host.Outcome State Fault Refusal := bodyStep (fun e b => bump e ag b) s

/-- An access of an epoch older than the current one remains (R296). -/
def oldInflight (b : Body) : Bool := b.dev.held.any fun h => decide (serialDiff h.epoch b.epoch 32 < 0)

/-- Does an FB_PERMq that is held change what is in effect (R458)? -/
def permHeld (b : Body) : Bool := b.dev.pg.heldRegs.any fun o => oRtr 0x80 ≤ o && o < oRtr 0xC0 && b.csr o != b.eff o

/-- Everything that is held takes effect as one change, and the epoch advances (steps 3 to 6 of R294; R459). -/
def applyHeldChanges (b : Body) : Body :=
  let b := if permHeld b then markDirty b else b
  let b := overList b.dev.pg.staged (fun x b => putEntry x.1 x.2 b) b
  let b := overList b.dev.pg.heldRegs (fun o b => { b with dev.eff := b.dev.eff.set o (BitVec.ofNat 64 (b.csr o)) }) b
  (b.bumpWrap oPgEpoch 0 32).modPg fun p => { p with staged := [], heldRegs := [], bumping := false }

/-- Is a move of a page whose entry is staged in progress (step 2 of R294)? -/
def stagedMoves (b : Body) : Bool :=
  b.dev.pg.moves.any fun m => b.dev.pg.staged.any (·.1 == (walk b m.q m.va).ea)

/-- PROT_BUMP_APPLY (R294): once no older access and no move of a staged page remains, the staged entries, then the
held registers, take effect, and the epoch advances. -/
def protBumpApply (_ : Env) (b : Body) : Body :=
  if !b.dev.pg.bumping || oldInflight b || stagedMoves b then b else applyHeldChanges b

/-- PROT_BUMP_APPLY. -/
def execProtBumpApply (s : State) : Host.Outcome State Fault Refusal := bodyStep protBumpApply s

/-- STAGE_CLEAR (R302). -/
def execStageClear (ag : Agent) (s : State) : Host.Outcome State Fault Refusal :=
  bodyStep (fun e b => guarded e ag oPgCtl b ((dropStage b).setField oPgStat 18 1 0)) s

/-- HPOOL_WRITE (R302): accepted only while the pool is wholly free. -/
def hpoolWrite (e : Env) (ag : Agent) (p : Nat) (size : Bool) (v : Nat) (b : Body) : Body :=
  let o := if size then oPgPoolSize p else oPgPoolBase p
  if 2 ≤ p then b
  else if !mayWrite ag o || b.field (oPgPoolSize p) 24 24 != b.field (oPgPoolSize p) 0 24 then csrError e ag o b
  else if size then (b.setField o 0 24 v).setField o 24 24 v
  else b.setField o 21 26 (v >>> 21)

/-- HPOOL_WRITE. -/
def execHpoolWrite (ag : Agent) (port : Nat) (size : Bool) (v : Word64) (s : State) : Host.Outcome State Fault Refusal :=
  bodyStep (fun e b => hpoolWrite e ag port size v.toNat b) s

end Sys2Proof.Machine
end

