-- ==== Sys2Proof/Machine/Copy.lean ====
section
/-! DEFINITION. The copy engine's own rows: launch, the operations of one copy, and completion (R356 to R364, R382, R383,
and for collectives R388, R391, R392). -/
namespace Sys2Proof.Machine

-- Launch.

/-- A launched operation before anything of it has happened. -/
def CpOp.start (tag : Nat) (q : QEntry) (desc : Nat) (squad policy : Nat) (st : Option Nat) : CpOp where
  tag := tag
  entry := q
  desc := desc
  coll := q.cpColl
  squad := squad
  issued := false
  await_ := 0
  got := []
  status := st
  arrived := 0
  selfArrived := false
  landed := []
  closed := false
  lineup := 0
  close := 0
  closeTime := 0
  carried := false
  whenLate := false
  minAt := none
  mismatch := false
  released := false
  policy := policy
  gather := false
  stale := false
  orphan := false

/-- The first of `k` tags from `t` on that no operation of the device carries. -/
def freeTagFrom (b : Body) : Nat → Nat → Nat
  | 0, _ => 0
  | k + 1, t => if (b.findTag t).isNone then t else freeTagFrom b k ((t + 1) % 65536)

/-- A tag that no operation of the device carries. -/
def freeTag (b : Body) : Nat := freeTagFrom b 65536 (b.dev.fab.tagNext % 65536)

/-- An operation is in flight. -/
def cpAdd (s : Nat) (o : CpOp) (b : Body) : Body :=
  { b with dev.fab.tagNext := (o.tag + 1) % 65536 }.modSite s fun t => { t with cp := { t.cp with ops := t.cp.ops ++ [o] } }

/-- The head leaves the queue and is in flight. -/
def cpPush (e : Env) (s : Nat) (o : CpOp) (b : Body) : Body :=
  retryIssue e s ((cpAdd s o b).modSite s fun t => { t with cp := { t.cp with eng := t.cp.eng.pop } })

/-- Operations of the engine in flight (R357, R383). -/
def CpSt.inFlight (x : CpSt) : Nat := x.ops.countP fun o => !o.orphan

/-- KOEN of the descriptor that an instruction names (R360, R377). -/
def QEntry.cpKoen (q : QEntry) (d : Nat) : Bool := if q.cpColl then bitOf d 12 else bitOf d 11

/-- The descriptor of the head, read once, when it reaches the head (R357, R384; log entry 66). -/
def cpDesc (e : Env) (s : Nat) (q : QEntry) (b : Body) : Nat × Body :=
  let (l, b) := captureHead e s [q.a.toNat] (b.site s).cp.eng b
  (l.headD 0, b.modSite s fun t => { t with cp := { t.cp with eng := { t.cp.eng with cap := some l } } })

/-- A late launch (R312, R357). -/
def cpLate (s : Nat) (b : Body) : Body := b.countLate.modSite s fun t => { t with cp := { t.cp with late := true } }

/-- The header of a frame that answers no request. -/
def plainHead (b : Body) (opc dst count : Nat) : OpHdr where
  opc := opc
  comb := false
  hop := false
  genchk := false
  tccen := false
  tcc := 0
  tag := 0
  orig := b.coord
  final := dst
  gen := b.gen
  step := 0
  rtile := 0
  rctx := 0
  fmt := 0
  count := count
  cwin := 0
  ext := 0
  addr := 0

/-- A READY frame (R376). -/
def sendReady (e : Env) (dst tc collid : Nat) (b : Body) : Body :=
  sendData e dst tc false ((plainHead b 8 dst collid).payload []) [] b

/-- READY to the devices that were answered NOTREADY for COLLIDs of `p` (R376, R408). -/
def readyFor (e : Env) (tc : Nat) (p : Nat → Bool) (b : Body) : Body :=
  let l := b.dev.tr.answered.filter fun x => p x.2
  overList l (fun x => sendReady e x.1.toNat tc x.2)
    { b with dev.tr.answered := b.dev.tr.answered.filter fun x => !p x.2 }

/-- The carry bit of a COLLID changed, with CARRY_PENDING (R391, R411). -/
def setCarry (c : Nat) (on : Bool) (b : Body) : Body :=
  let l := b.dev.tr.carry.filter (· != c) ++ (if on then [c] else [])
  { b with dev.tr.carry := l }.setField (oTr 0x40) 16 13 l.length

/-- One element of a carried contribution joined to the source: the single rounding of the exact sum of the widened values
(R53, R391). -/
def carryElem (fmt x r : Nat) : Nat × FFlags :=
  if fmt = 9 then intAccum x (sInt 32 r)
  else
    let (a, f) := readWiden fmt x
    let (c, g) := readWiden fmt r
    let (v, h) := arith fmt (a.isNan || c.isNan) (Num.add a c) .rne
    (v, f ||| g ||| h)

/-- R391 at a launch: SRC replaced where the carry bit is set, and the bit cleared. `none` while a page keeps it waiting; a
status where the operation cannot go on. -/
def carryIn (e : Env) (s : Nat) (o : CpOp) (b : Body) : Option Nat × Body :=
  if !o.coll || !o.reduces || !b.dev.tr.carry.contains o.collid then (some cpOk, b)
  else
    let n := packedBytes o.dfmt o.nelem
    match sideRead e (o.here s) o.src n b with
    | (.stall, b) => (none, b)
    | (.refused, b) => (some cpRefused, b)
    | (.ok x sx, b) =>
      match sideRead e (o.here s) o.ret n b with
      | (.stall, b) => (none, b)
      | (.refused, b) => (some cpRefused, b)
      | (.ok r sr, b) =>
        let l := ((unpack o.dfmt o.nelem x).zip (unpack o.dfmt o.nelem r)).map fun p => carryElem o.dfmt p.1 p.2
        match sideWrite e (o.here s) o.src (pack o.dfmt (l.map (·.1))) b with
        | (.stall, b) => (none, b)
        | (.refused, b) => (some cpRefused, b)
        | (.ok _ sw, b) =>
          (some (firstBad sx (firstBad sr sw)),
           setCarry o.collid false (cpFlags s (l.foldl (fun f p => f ||| p.2) 0#8) b))

/-- W of a WHEN = 1 reduction more than 1 ms past at the launch of the root's part (R388). -/
def whistleLate (e : Env) (o : CpOp) (b : Body) : Bool :=
  o.coll && o.when_ && (o.straggler == 1 || o.straggler == 2) && o.rootPos == rankOf b 0 && kickLate e.now o.whistle

/-- What the launch of a collective does beside launching (R376, R388). -/
def collLaunch (e : Env) (o : CpOp) (b : Body) : Body :=
  if !o.coll then b
  else
    let b := readyFor e o.tc (· == o.collid) b
    if whistleLate e o b then (trEvent 2 b).countLate else b

/-- The engine's own state is checked at a launch (R382, R434): uncorrectable? -/
def cpCheck (e : Env) (s : Nat) (b : Body) : Bool × Body :=
  match check (detOf 5 s) 0 b with
  | (some 1, b) => (false, recordErr e { kind := 4, sev := 0, inj := true, det := detOf 5 s, site := s } b)
  | (some _, b) => (true, recordErr e { kind := 5, sev := 1, inj := true, det := detOf 5 s, site := s } b)
  | (none, b) => (false, b)

/-- TL_CP_STAT.KWAIT: the head waits on its kickoff (R357, R383). -/
def cpKwait (e : Env) (b : Body) (s : Nat) : Bool :=
  let t := b.site s
  match t.cp.eng.head with
  | none => false
  | some q =>
    let seen := cpEncodingOk q && q.a.toNat % 64 == 0 && cpDescOk t q && !wakingIn t (q.a.toNat, 64)
    let d := (t.cp.eng.cap.getD (if seen then [descAt b.mem s q.a.toNat] else [])).getD 0 0
    (t.cp.eng.cap.isSome || seen) && q.cpKoen d && !kickDue e.now (bitsOf d 32 32)

/-- CP_LAUNCH (R357, R358): the head is checked in the order of R512 and launched. R512 has no step for CP_UE: the model finds
an uncorrectable error in the engine's own state before every check of the descriptor (log entry 67). A launch that a page or
a waking bank keeps waiting has not happened and is not late. -/
def cpLaunch (s : Nat) (e : Env) (b : Body) : Body :=
  let x := (b.site s).cp
  match x.eng.head with
  | none => b
  | some q =>
    if 408 ≤ s || 64 ≤ x.inFlight || b.retired then b
    else
      let tag := freeTag b
      let squad := (b.squadAt s).getD 8
      let ends := fun st b => cpPush e s (CpOp.start tag q 0 squad 0 (some st)) b
      if !cpEncodingOk q then ends cpEncoding b
      else if q.a.toNat % 64 != 0 then ends cpShape b
      else if !cpDescOk (b.site s) q then ends cpBank b
      else if wakingIn (b.site s) (q.a.toNat, 64) then b
      else
        let (d, b) := cpDesc e s q b
        let koen := q.cpKoen d
        let k := bitsOf d 32 32
        if koen && !kickDue e.now k then b
        else
          let late := fun b => if koen && kickLate e.now k then cpLate s b else b
          let (ue, b) := cpCheck e s b
          let o := CpOp.start tag q d squad (b.csr (oTr 0x18)) none
          let st := if ue then cpUe else if q.cpColl then o.collStatus b s else o.copyStatus b s
          if st != cpOk then cpPush e s { o with status := some st } (late b)
          else match carryIn e s o b with
            | (none, b) => b
            | (some st, b) =>
              collLaunch e o (cpPush e s { o with status := if st = cpOk then none else some st, whenLate := whistleLate e o b }
                (late b))

/-- CP_LAUNCH. -/
def execCpLaunch (site : Nat) (s : State) (clash : List Nat := []) : Host.Outcome State Fault Refusal :=
  clashStep clash (cpLaunch site) s

-- Copies.

/-- The remote end of a local operation (R360, R363). -/
def CpOp.there (o : CpOp) (b : Body) (s : Nat) : Side := sideOf b o.rtile o.rctx (whoOp o.tag) (some s)

/-- Elements at linear offset `i0` written at a side as the destination format, with flags and digest; `none` while the
write waits (R362, R426, R427). -/
def cpStore (e : Env) (s : Nat) (o : CpOp) (d : Side) (a i0 : Nat) (data : List Byte) (b : Body) : Option Nat × Body :=
  if digWaits b [(o.tid, 0, o.org + i0, data.length * 8 / fmtWidth o.sfmt)] then (none, b)
  else
    let (v, f) := o.convert (o.org + i0) data
    match sideWrite e d a v b with
    | (.stall, b) => (none, b)
    | (.refused, b) => (some cpRefused, b)
    | (.ok _ st, b) => (some st, o.digest i0 v (cpFlags s f b))

/-- A whole copy within the device (R360, R362, R363). -/
def localCopy (e : Env) (s : Nat) (o : CpOp) (src dst : Side) (sa da n : Nat) (b : Body) : Body :=
  match sideRead e src sa n b with
  | (.stall, b) => b
  | (.refused, b) => endOp s o.tag cpRefused b
  | (.ok v sr, b) =>
    match cpStore e s o dst da 0 v b with
    | (none, b) => b
    | (some st, b) =>
      let st := firstBad st sr
      let b := issued s o.tag (endOp s o.tag st b)
      if o.op = 1 && st != cpRefused then advanceTcc (o.head b 1 0 0) 1 b else b

/-- The pieces of a put leave (R364, R367). -/
def sendPut (e : Env) (s : Nat) (o : CpOp) (v : List Byte) (b : Body) : Body :=
  overList (piecesOf (pieceMax b) v) (fun p b =>
    sendOp e s o (o.head b 1 v.length (o.raddr + p.1)) o.rdev false p.2 b) b

/-- PUT (R364). -/
def cpPut (s tag : Nat) (e : Env) (b : Body) : Body :=
  match pendingOp b s tag 1 false with
  | none => b
  | some o =>
    if o.isLocal b then
      if !rctxOk b o.rtile o.rctx then endOp s tag cpRefused b
      else localCopy e s o (o.here s) (o.there b s) o.laddr o.raddr o.localBytes b
    else match sideRead e (o.here s) o.laddr o.localBytes b with
      | (.stall, b) => b
      | (.refused, b) => endOp s tag cpRefused b
      | (.ok v st, b) =>
        let (w, f) := o.convert o.org v
        let b := sendPut e s o w (issued s tag (cpFlags s f b))
        if st = cpOk then b else endOp s tag st b

/-- PUT. -/
def execPut (site tag : Nat) (s : State) (clash : List Nat := []) : Host.Outcome State Fault Refusal :=
  clashStep clash (cpPut site tag) s

-- Gets and their combining (R364, R372).

/-- Are two get requests identical (R372)? Those of a collective also name it (R407, log entry 41). -/
def sameGet (f g : Frame) : Bool :=
  let h := headOf f
  let k := headOf g
  f.opc == 2 && g.opc == 2 && h.final == k.final && h.rctx == k.rctx && h.addr == k.addr && h.count == k.count &&
    h.fmt == k.fmt && h.gen == k.gen && h.step == k.step && (h.rtile == collTile) == (k.rtile == collTile) && h.ext == k.ext

/-- Entries of the combining table (R371). -/
def combEntries : Nat := 4096

/-- The entry that an identical request may still join (R372). -/
def joinable (f : Frame) (b : Body) (x : CombEntry) : Bool :=
  sameGet x.open_ f && b.dev.ticks ≤ x.tick + x.window

/-- A GET_DATA or STATUS of an entry as it would have come for an operation of this device that joins later. -/
def lateFrame (b : Body) (f : Frame) (tag opc count : Nat) (data : List Byte) : Frame :=
  newFrame b 1 b.coord f.tc.toNat false ({ headOf f with opc := opc, count := count, orig := b.coord, tag := tag }.payload data)

/-- What an entry has sent on already reaches one that joins late (R372): a neighbour's request by answers to it, an operation
of this device as frames that wait in the inbox. -/
def lateJoin (e : Env) (x : CombEntry) (frames : List Frame) (locals : List (Nat × Nat)) (b : Body) : Body :=
  let b := overList frames (fun g b =>
    let b := if x.ue then answerFrame e g 10 cpMemUe [] b else b
    overList x.pieces (fun p b => answerFrame e g 3 p.1 p.2 b) b) b
  { b with dev.fab.inbox := b.dev.fab.inbox ++ locals.flatMap fun o =>
      (if x.ue then [lateFrame b x.open_ o.2 10 cpMemUe []] else []) ++ x.pieces.map fun p => lateFrame b x.open_ o.2 3 p.1 p.2 }

/-- A get request joins an open entry. -/
def joinGet (e : Env) (f : Frame) (frames : List Frame) (locals : List (Nat × Nat)) (b : Body) : Option Body :=
  match b.dev.fab.comb.find? (joinable f b) with
  | some x => some (lateJoin e x frames locals { b with dev.fab.comb := mapWhere b.dev.fab.comb (joinable f b) fun x =>
      { x with joined := x.joined ++ frames, locals := x.locals ++ locals } })
  | none => none

/-- An entry for a get that is forwarded; its frame's DST is the device it goes to. -/
def openGet (f : Frame) (frames : List Frame) (locals : List (Nat × Nat)) (b : Body) : Body :=
  if combEntries ≤ b.dev.fab.comb.length then b
  else { b with dev.fab.comb := b.dev.fab.comb ++
    [{ open_ := { f with dst := BitVec.ofNat 16 (nextHop b (headOf f).final) }, tick := b.dev.ticks, window := windowNs (headOf f).cwin, joined := frames, locals := locals, count := 0,
       sums := [], pieces := [], ue := false }] }

/-- A get request of an operation leaves, or joins an entry (R364, R371, R372). -/
def sendGet (e : Env) (s : Nat) (o : CpOp) (h : OpHdr) (b : Body) : Body :=
  if h.comb then
    let h := { h with hop := true }
    let f := newFrame b 1 h.final o.tc false (h.payload [])
    match joinGet e f [] [(s, o.tag)] b with
    | some b => b
    | none => sendOp e s o h (nextHop b h.final) false [] (openGet f [] [(s, o.tag)] b)
  else sendOp e s o h h.final false [] b

/-- GET (R364). -/
def cpGet (s tag : Nat) (e : Env) (b : Body) : Body :=
  match pendingOp b s tag 2 false with
  | none => b
  | some o =>
    if o.isLocal b then
      if !rctxOk b o.rtile o.rctx then endOp s tag cpRefused b
      else localCopy e s o (o.there b s) (o.here s) o.raddr o.laddr o.remoteBytes b
    else issued s tag (sendGet e s o (o.head b 2 o.nelem o.raddr) b)

/-- GET. -/
def execGet (site tag : Nat) (s : State) (clash : List Nat := []) : Host.Outcome State Fault Refusal :=
  clashStep clash (cpGet site tag) s

/-- OSEND (R350, R360, R364): one UDP frame on OA or OB, which must be able to send. -/
def cpOsend (s tag : Nat) (e : Env) (b : Body) : Body :=
  match pendingOp b s tag 4 false with
  | none => b
  | some o =>
    let p := 8 + o.rtile % 2
    if !b.carries p then b
    else match sideRead e (o.here s) o.laddr o.nelem b with
      | (.stall, b) => b
      | (.refused, b) => endOp s tag cpRefused b
      | (.ok v st, b) =>
        endOp s tag st
          (b.send (.udp p (o.d 384 48) (o.raddr * 2 ^ 64 + o.d 320 64) o.rdev v))

/-- OSEND. -/
def execOsend (site tag : Nat) (s : State) : Host.Outcome State Fault Refusal := bodyStep (cpOsend site tag) s

-- Completion.

/-- Does a status halt the engine (R382)? -/
def cpHalts (st : Nat) : Bool := (1 ≤ st && st ≤ 8) || st == 0x0B || st == 0x10 || st == 0x11

/-- An instruction completes with a status: STATUS of its descriptor, which itself may lose a collision (R224), its counter,
LAST_STATUS, TL_CP_ERR and the halt (R359, R382, R383). -/
def cpFinish (e : Env) (s : Nat) (q : QEntry) (st : Nat) (b : Body) : Body :=
  let (hit, b) := if cpDescOk (b.site s) q then
      unitWrite e 5 s (q.a.toNat + 63, 1) (b.mem.set (siteBase s + q.a.toNat + 63) (BitVec.ofNat 8 st)) b else (false, b)
  let st := firstBad st (if hit then cpCollide else cpOk)
  let b := (b.advanceCc s q.cpCc).modSite s fun t => { t with cp := { t.cp with eng := { t.cp.eng with last := st } } }
  if st = cpOk || st = cpFlushed then b
  else
    let b := b.modSite s fun t =>
      { t with cp := { t.cp with eng := t.cp.eng.record (BitVec.ofNat 64 (2 ^ 63 + st * 2 ^ 40 + q.word.toNat)) } }
    if cpHalts st then
      haltEngine e s 3 (b.modSite s fun t => { t with cp := { t.cp with eng := { t.cp.eng with halted := true } } })
    else b

/-- Bytes of `got` that came from a rank. -/
def CpOp.gotFrom (o : CpOp) (j : Nat) : Nat := ((o.got.filter fun g => g.1 / 2 ^ 32 == j).map (·.2)).sum

/-- The ranks whose data a gather fetches (R378, R386). -/
def CpOp.sources (o : CpOp) (b : Body) : List Nat :=
  if o.op = 4 then [o.root].filter (· != rankOf b o.ax) else o.peers b

/-- Bytes that a gather fetches from one rank. -/
def CpOp.slotBytes (o : CpOp) (b : Body) : Nat := packedBytes o.dfmt (if o.op = 4 then o.nelem else o.seg b)

/-- Has a gather everything it fetches? -/
def CpOp.gathered (o : CpOp) (b : Body) : Bool := (o.sources b).all fun j => o.slotBytes b ≤ o.gotFrom j

/-- The status with which an operation may complete now (R364, R378). -/
def CpOp.finished (o : CpOp) (b : Body) : Option Nat :=
  match o.status with
  | some st => some st
  | none =>
    let ok :=
      if o.coll then
        !o.stale && o.issued && (if o.reduces then o.gather && o.await_ == 0 && (o.op == 1 || o.gathered b) else o.gathered b)
      else o.issued && o.await_ == 0 && !o.isLocal b && (o.op == 1 || (o.op == 3 && o.comb))
    if ok then some cpOk else none

/-- The result header of a WHEN = 1 reduction (R392). -/
def CpOp.header (o : CpOp) (b : Body) (st : Nat) : Nat :=
  let l := if st = cpDead || st = cpStale then 0 else o.lineup
  let r := rankOf b o.ax
  st + b2n (bitOf l r) * 2 ^ 8 + b2n o.carried * 2 ^ 9 + o.close * 2 ^ 10 + o.rootPos * 2 ^ 12 + l * 2 ^ 16 +
    o.closeTime * 2 ^ 32 + o.gen * 2 ^ 64 + o.step * 2 ^ 80 + o.collid * 2 ^ 128 + r * 2 ^ 140 + o.straggler * 2 ^ 144

/-- The result header written, with the status that leaves: none while its page keeps it waiting (R392). -/
def writeHeader (e : Env) (s : Nat) (o : CpOp) (st : Nat) (b : Body) : Option Nat × Body :=
  if o.coll && o.when_ then
    match sideWrite e (o.here s) o.haddr (leBytes (o.header b st) 64) b with
    | (.stall, b) => (none, b)
    | (.refused, b) => (some (firstBad st cpRefused), b)
    | (.ok _ sw, b) => (some (firstBad st sw), b)
  else (some st, b)

/-- Must the write of STATUS wait for a bank that wakes (R225, R359)? -/
def statusWaits (t : Site) (q : QEntry) : Bool := cpDescOk t q && wakingIn t (q.a.toNat, 64)

/-- CP_COMPLETE (R359, R382, R392). -/
def cpComplete (s tag : Nat) (e : Env) (b : Body) : Body :=
  if 408 ≤ s then b
  else match b.opOf s tag with
    | none => b
    | some o =>
      match o.finished b with
      | none => b
      | some st =>
        let gone := fun (b : Body) =>
          b.modSite s fun t => { t with cp := { t.cp with ops := t.cp.ops.filter fun x => x.tag != tag } }
        if o.orphan then gone b
        else if statusWaits (b.site s) o.entry then b
        else match writeHeader e s o st b with
        | (none, b) => b
        | (some st, b) =>
          let b := if o.coll && st = cpOk then { b with dev.tr.served := b.dev.tr.served ++ [(s, o)] } else b
          cpFinish e s o.entry st (gone b)

/-- CP_COMPLETE. -/
def execCpComplete (site tag : Nat) (s : State) (clash : List Nat := []) : Host.Outcome State Fault Refusal :=
  clashStep clash (cpComplete site tag) s

/-- TL_CP_CTL.FLUSH (R383); where STATUS must wait for a bank that wakes, the completion waits with it (R225). -/
def cpFlush (s : Nat) (e : Env) (b : Body) : Body :=
  let b := overList (b.site s).cp.eng.q (fun q b =>
    if statusWaits (b.site s) q then
      cpAdd s (CpOp.start (freeTag b) q 0 8 0 (some cpFlushed)) b
    else cpFinish e s q cpFlushed b) b
  retryIssue e s (b.modSite s fun t =>
    { t with cp := { t.cp with eng := { t.cp.eng with q := [], cap := none, halted := false } } })

/-- CP_FLUSH. -/
def execCpFlush (ag : Agent) (site : Nat) (s : State) (clash : List Nat := []) : Host.Outcome State Fault Refusal :=
  clashStep clash (fun e b => atSite site b (guarded e ag (oTl site 0x4000) b (cpFlush site e b))) s

/-- CP_RESUME (R383). -/
def execCpResume (ag : Agent) (site : Nat) (s : State) : Host.Outcome State Fault Refusal :=
  bodyStep (fun e b => atSite site b (guarded e ag (oTl site 0x4000) b
    (b.modSite site fun t => { t with cp := { t.cp with eng := { t.cp.eng with halted := false } } }))) s

end Sys2Proof.Machine
end

