-- ==== Sys2Proof/Machine/CollOps.lean ====
section
/-! DEFINITION. What the collectives' rows share: the pieces a rank sends, the reduction of R380, the gather of R378, how
the parts of a rank go on (R378, R386 to R391), and the lineup. -/
namespace Sys2Proof.Machine

/-- The operation row of a collective still to be issued, or under way. -/
def collOp (b : Body) (s tag op : Nat) : Option CpOp :=
  match b.opOf s tag with
  | some o => if o.coll && o.op == op && o.status.isNone && !o.stale then some o else none
  | none => none

/-- The address of element `i` of a packed array. -/
def CpOp.elemAddr (o : CpOp) (base i : Nat) : Nat := base + i * fmtWidth o.dfmt / 8

-- Contributions (R378).

/-- The header of a piece: COUNT names the collective and the sender, ADDR the element of the receiver's DST. -/
def CpOp.pieceHead (o : CpOp) (b : Body) (addr : Nat) : OpHdr :=
  o.head b 6 (o.collid + 2 ^ 12 * rankOf b o.ax) addr

/-- The pieces of SRC segment `j` leave for rank `j`. -/
def sendSegment (e : Env) (s : Nat) (o : CpOp) (src : List Byte) (j : Nat) (b : Body) : Body :=
  let n := packedBytes o.dfmt (o.seg b)
  let at_ := rankOf b o.ax * o.seg b
  overList (piecesOf (pieceMax b) ((src.drop (j * n)).take n)) (fun p b =>
    sendOp e s o { o.pieceHead b (at_ + p.1 * 8 / fmtWidth o.dfmt) with final := o.device b j } (o.device b j) false p.2 b) b

/-- The own part of a reduction leaves (R378, R386). -/
def issueReduce (e : Env) (s : Nat) (o : CpOp) (b : Body) : Body :=
  match sideRead e (o.here s) o.src (packedBytes o.dfmt o.nelem) b with
  | (.stall, b) => b
  | (.refused, b) => endOp s o.tag cpRefused b
  | (.ok v st, b) =>
    let b := overList (o.peers b) (sendSegment e s o v) (issued s o.tag b)
    if st = cpOk then b else endOp s o.tag st b

-- The reduction (R380).

/-- The format in which nodes add. -/
def nodeFmt (fmt : Nat) : Nat := if fmt = 0 then 0 else if fmt = 9 then 9 else 1

/-- One node: rounded once under RNE, or a saturating sum. -/
def redNode (cls x y : Nat) : Nat × FFlags := if cls = 9 then intAccum x (sInt 32 y) else fpAdd cls x y .rne

/-- One level of the tree. -/
def redLevel (cls : Nat) : List (Nat × FFlags) → List (Nat × FFlags)
  | x :: y :: l => (let r := redNode cls x.1 y.1; (r.1, x.2 ||| y.2 ||| r.2)) :: redLevel cls l
  | l => l

/-- The balanced pairwise tree over 2^k leaves. -/
def redTree (cls : Nat) : Nat → List (Nat × FFlags) → Nat × FFlags
  | 0, l => l.headD (0, 0#8)
  | k + 1, l => redTree cls k (redLevel cls l)

/-- A leaf widened exactly. -/
def redLeaf (fmt x : Nat) : Nat × FFlags := if fmt = 2 ∨ fmt = 3 then convertElem fmt 1 x .rne else (x, 0#8)

/-- The exponent of the number of leaves. -/
def treeDepth (n : Nat) : Nat := bitLen (n - 1)

/-- A reduced element from the leaves of the ranks, `none` outside the inclusion set (R380): the root is converted to FMT, be
it the one leaf of a ring of one rank. -/
def redElem (fmt : Nat) (leaves : List (Option Nat)) (sel : Sel) : Nat × FFlags :=
  let cls := nodeFmt fmt
  let k := treeDepth leaves.length
  let l := leaves.map fun x => match x with | some v => redLeaf fmt v | none => (0, 0#8)
  let r := redTree cls k (l ++ List.replicate (2 ^ k - l.length) (0, 0#8))
  if fmt = 9 then r else let c := convertElem cls fmt r.1 sel; (c.1, r.2 ||| c.2)

/-- Is a rank in the inclusion set (R380)? -/
def CpOp.includes (o : CpOp) (j : Nat) : Bool := !o.when_ || bitOf o.lineup j

/-- The reduced own segment, from DST and the own segment of SRC (R378, R380). -/
def CpOp.reduced (o : CpOp) (b : Body) (dst src : List Nat) : List (Nat × FFlags) :=
  let sg := o.seg b
  let me := rankOf b o.ax
  (List.range sg).map fun i =>
    redElem o.dfmt ((List.range (o.n b)).map fun j =>
      if !o.includes j then none else some (if j = me then src.getD i 0 else dst.getD (j * sg + i) 0))
      (elemSel o.entry.sr o.entry.key.toNat 1 o.tid (me * sg + i) 0 o.step)

/-- Elements of a collective written to DST from element `i0`, digested (R426, R427); `none` while the write waits. -/
def collStore (e : Env) (s : Nat) (o : CpOp) (i0 : Nat) (data : List Byte) (b : Body) : Option Nat × Body :=
  let slots := digSlots b o.tid 0
  if digWaits b [(o.tid, 0, i0, data.length * 8 / fmtWidth o.dfmt)] then (none, b)
  else match sideWrite e (o.here s) (o.elemAddr o.dst i0) data b with
    | (.stall, b) => (none, b)
    | (.refused, b) => (some cpRefused, b)
    | (.ok _ st, b) =>
      let b := if slots.isEmpty then b
        else ((unpack o.dfmt (data.length * 8 / fmtWidth o.dfmt) data).zipIdx).foldl (fun b x =>
          digElem slots o.tid 0 o.dfmt o.step (i0 + x.2) x.1 b) b
      (some st, b)

/-- Several writes to DST in turn: `none` as soon as one waits, else the first failing status. -/
def collStores (e : Env) (s : Nat) (o : CpOp) : List (Nat × List Byte) → Nat → Body → Option Nat × Body
  | [], st, b => (some st, b)
  | (i0, data) :: l, st, b =>
    match collStore e s o i0 data b with
    | (none, b) => (none, b)
    | (some x, b) => collStores e s o l (firstBad st x) b

/-- The slots of non-members, which are written as +0 (R386). -/
def CpOp.voidSlots (o : CpOp) (b : Body) : List Nat := (List.range (o.n b)).filter fun j => !o.member b j

/-- The own segment reduced over the inclusion set and written, with +0 in the slots of non-members; `none` while a page
keeps it waiting. -/
def reduceOwn (e : Env) (s : Nat) (o : CpOp) (b0 : Body) : Option Nat × Body :=
  let sg := o.seg b0
  let n := packedBytes o.dfmt sg
  let me := rankOf b0 o.ax
  match sideRead e (o.here s) o.dst (packedBytes o.dfmt o.nelem) b0 with
  | (.stall, b) => (none, b)
  | (.refused, b) => (some cpRefused, b)
  | (.ok dv sd, b) =>
    match sideRead e (o.here s) (o.elemAddr o.src (me * sg)) n b with
    | (.stall, b) => (none, b)
    | (.refused, b) => (some cpRefused, b)
    | (.ok sv ss, b) =>
      let l := o.reduced b (unpack o.dfmt o.nelem dv) (unpack o.dfmt sg sv)
      let zero := List.replicate n 0#8
      match collStores e s o ((me * sg, pack o.dfmt (l.map (·.1))) :: (o.voidSlots b).map fun j => (j * sg, zero)) cpOk b with
      | (none, b) => (none, { b0 with dev.pg := b.dev.pg })
      | (some st, b) =>
        (some (firstBad st (firstBad sd ss)), cpFlags s (l.foldl (fun f x => f ||| x.2) 0#8) b)

-- How a part goes on.

/-- Bytes of one rank's contribution that have landed. -/
def CpOp.landedFrom (o : CpOp) (j : Nat) : Nat := ((o.landed.filter fun g => g.1 == j).map (·.2)).sum

/-- May the own segment be reduced now: every contribution has landed, or the lineup is known and the own pieces are
settled (R378, R389, R390)? -/
def CpOp.ready (o : CpOp) (b : Body) : Bool :=
  o.coll && o.reduces && o.issued && o.status.isNone && !o.stale && !o.gather &&
    (if o.when_ then o.closed && o.await_ == 0
     else (o.peers b).all fun j => packedBytes o.dfmt (o.seg b) ≤ o.landedFrom j)

/-- Must the rank carry its contribution (R390)? -/
def CpOp.mustCarry (o : CpOp) (b : Body) : Bool :=
  o.when_ && o.straggler == 1 && !bitOf o.lineup (rankOf b o.ax) && !o.carried

/-- SRC copied exactly to RET (R390, R408); `none` while a page keeps it waiting. -/
def copyToRet (e : Env) (s : Nat) (o : CpOp) (b : Body) : Option Nat × Body :=
  match sideRead e (o.here s) o.src (packedBytes o.dfmt o.nelem) b with
  | (.stall, b) => (none, b)
  | (.refused, b) => (some cpRefused, b)
  | (.ok v sr, b) =>
    match sideWrite e (o.here s) o.ret v b with
    | (.stall, b) => (none, b)
    | (.refused, b) => (some cpRefused, b)
    | (.ok _ sw, b) => (some (firstBad sr sw), b)

/-- A contribution carried where the rank was left out under CARRY (R390): `none` while it waits. -/
def carryOut (e : Env) (s : Nat) (o : CpOp) (b : Body) : Option Nat × Body :=
  if !o.mustCarry b then (some cpOk, b)
  else match copyToRet e s o b with
    | (some 0, b) => (some cpOk, setCarry o.collid true (b.modOp s o.tag fun x => { x with carried := true }))
    | r => r

/-- The get of one rank's slot (R378): COMB = 1, of the collective that serves it (log entry 41). -/
def gatherHead (o : CpOp) (b : Body) (j : Nat) : OpHdr :=
  let n := if o.op = 4 then o.nelem else o.seg b
  let a := if o.op = 3 then o.elemAddr o.dst (j * o.seg b) else o.src
  { o.head b 2 n a with comb := true, final := o.device b j }

/-- Is a rank whose data a gather needs dead (R375)? -/
def CpOp.sourceDead (o : CpOp) (b : Body) : Bool := (o.sources b).any fun j => b.isDead (o.device b j)

/-- The gets of a gather leave. -/
def sendGathers (e : Env) (s : Nat) (o : CpOp) (b : Body) : Body :=
  overList (o.sources b) (fun j b => sendGet e s o (gatherHead o b j) b) b

/-- A reduction goes on where it can (R378, R389, R390): the own segment is reduced, and ALL_REDUCE begins its gather, for
which the gets held at other ranks are now ready. -/
def collProgress (e : Env) (s tag : Nat) (b : Body) : Body :=
  match b.opOf s tag with
  | none => b
  | some o =>
    if !o.ready b then b
    else match carryOut e s o b with
      | (none, b) => b
      | (some st, b) =>
        if st != cpOk then endOp s tag st b
        else match reduceOwn e s o b with
          | (none, b) => b
          | (some st, b) =>
            let b := b.modOp s tag fun x => { x with gather := true }
            if st != cpOk then endOp s tag st b
            else if o.op != 3 then b
            else
              let b := readyFor e o.tc (· == o.collid) b
              if o.sourceDead b then endOp s tag cpDead b else sendGathers e s o b

-- The lineup (R388, R389).

/-- ADDR of an arrival notice (R387). -/
def noticeAddr : Nat := 2 ^ 64 - 2
/-- ADDR of a lineup piece (R389). -/
def lineupAddr : Nat := 2 ^ 64 - 1

/-- The members, as a mask over the ring. -/
def ringMembers (o : CpOp) (b : Body) : Nat := members b % 2 ^ o.n b

/-- TR_STRAG.MINRANKS at the launch. -/
def CpOp.minRanks (o : CpOp) : Nat := bitsOf o.policy 8 5

/-- Ranks in a mask. -/
def countRanks (m : Nat) : Nat := (List.range 16).countP (bitOf m)

/-- A rank arrives at the root (R387, R388). -/
def arrive (e : Env) (s tag j : Nat) (b : Body) : Body :=
  b.modOp s tag fun o =>
    let a := o.arrived ||| 2 ^ j
    { o with arrived := a,
             minAt := if o.minAt.isNone && o.minRanks ≤ countRanks a then some (e.now % 2 ^ 32) else o.minAt }

/-- Frames of an operation that have not left yet are dropped: it launches nothing further (R390, R408). -/
def dropWaiting (s tag : Nat) (b : Body) : Body :=
  overList b.dev.fab.flows (fun p b =>
    let mine := fun (x : Outgoing) => x.owners.contains (s, tag)
    let n := (p.2.waiting.filter mine).length
    if n = 0 then b
    else (b.modFlow p.1 fun fl => { fl with waiting := fl.waiting.filter fun x => !mine x }).modOp s tag
      fun o => { o with await_ := o.await_ - n }) b

/-- A reduction has closed at this device, with its lineup (R389, R390). -/
def closeWith (e : Env) (s : Nat) (o : CpOp) (lineup close time : Nat) (b : Body) : Body :=
  let b := b.modOp s o.tag fun x => { x with closed := true, lineup := lineup, close := close, closeTime := time }
  let b := { b with dev.tr.closedColl := (o.collid, o.step) :: b.dev.tr.closedColl }
  collProgress e s o.tag (if bitOf lineup (rankOf b o.ax) then b else dropWaiting s o.tag b)

/-- The 16 bytes of a lineup piece (R389). -/
def lineupBytes (lineup close time : Nat) : List Byte := leBytes (lineup + close * 2 ^ 16 + time * 2 ^ 32) 16

/-- The lineup pieces leave (R389). -/
def sendLineup (e : Env) (o : CpOp) (lineup close time : Nat) (b : Body) : Body :=
  overList (o.peers b) (fun j b =>
    sendData e (o.device b j) o.tc false
      ({ o.pieceHead b lineupAddr with final := o.device b j }.payload (lineupBytes lineup close time)) [] b) b

/-- A lineup record (R393). -/
def CpOp.record (o : CpOp) (b : Body) (lineup close time : Nat) : Nat :=
  o.step + o.gen * 2 ^ 48 + o.collid * 2 ^ 64 + o.rootPos * 2 ^ 76 + withAxis b.coord 0 0 * 2 ^ 80 + lineup * 2 ^ 96 +
    close * 2 ^ 112 + time * 2 ^ 128 + 2 ^ 255

/-- The slot of the lineup log at the head (R393, R411). -/
def logSlot (b : Body) : Nat :=
  let w := b.csr (oTr 0x50)
  bitsOf w 5 43 * 32 + 32 * (b.field (oTr 0x58) 0 16 % 2 ^ bitsOf w 60 4)

/-- The head of the lineup log moves on. -/
def logNext (b : Body) : Body :=
  b.setField (oTr 0x58) 0 16 ((b.field (oTr 0x58) 0 16 + 1) % 2 ^ b.field (oTr 0x50) 60 4)

end Sys2Proof.Machine
end

