-- ==== Sys2Proof/Machine/Coll.lean ====
section
/-! DEFINITION. The collectives' rows (R378, R386 to R394, R408): issue, arrival, close, lineup log, and what a change of
generation does. -/
namespace Sys2Proof.Machine

/-- A rank that the lineup has left out before its own pieces left launches none of them (R390). -/
def CpOp.leftOut (o : CpOp) (b : Body) : Bool := o.closed && !bitOf o.lineup (rankOf b o.ax)

/-- A reduction's row: the own pieces leave once, and the part goes on (R378). -/
def collReduce (op s tag : Nat) (e : Env) (b : Body) : Body :=
  match collOp b s tag op with
  | none => b
  | some o =>
    collProgress e s tag (if o.issued then b else if o.leftOut b then issued s tag b else issueReduce e s o b)

/-- REDUCE_SCATTER. -/
def execReduceScatter (site tag : Nat) (s : State) (clash : List Nat := []) : Host.Outcome State Fault Refusal :=
  clashStep clash (collReduce 1 site tag) s

/-- ALL_REDUCE. -/
def execAllReduce (site tag : Nat) (s : State) (clash : List Nat := []) : Host.Outcome State Fault Refusal :=
  clashStep clash (collReduce 3 site tag) s

/-- ALL_GATHER and BROADCAST: the local copy of the own slot, and the gets of the others (R378). -/
def collGather (op s tag : Nat) (e : Env) (b : Body) : Body :=
  match collOp b s tag op with
  | none => b
  | some o =>
    if o.issued then b
    else if o.op = 4 && o.root != rankOf b o.ax then issued s tag (sendGathers e s o b)
    else match sideRead e (o.here s) o.src (o.slotBytes b) b with
      | (.stall, b) => b
      | (.refused, b) => endOp s tag cpRefused b
      | (.ok v sr, b) =>
        match collStore e s o (if o.op = 4 then 0 else rankOf b o.ax * o.seg b) v b with
        | (none, b) => b
        | (some st, b) =>
          let st := firstBad st sr
          let b := issued s tag (sendGathers e s o b)
          if st = cpOk then b else endOp s tag st b

/-- ALL_GATHER. -/
def execAllGather (site tag : Nat) (s : State) (clash : List Nat := []) : Host.Outcome State Fault Refusal :=
  clashStep clash (collGather 2 site tag) s

/-- BROADCAST. -/
def execBroadcast (site tag : Nat) (s : State) (clash : List Nat := []) : Host.Outcome State Fault Refusal :=
  clashStep clash (collGather 4 site tag) s

/-- RANK_ARRIVE (R387): every piece acknowledged; the root arrives on its own, any other rank sends its notice. -/
def rankArrive (s tag : Nat) (e : Env) (b : Body) : Body :=
  match b.opOf s tag with
  | none => b
  | some o =>
    if !(o.coll && o.reduces && o.when_ && o.issued && o.await_ == 0 && !o.selfArrived && !o.closed && !o.stale && o.status.isNone)
    then b
    else
      let me := rankOf b o.ax
      let b := b.modOp s tag fun x => { x with selfArrived := true }
      if o.rootPos = me then arrive e s tag me b
      else
        let root := o.device b o.rootPos
        sendData e root o.tc false ({ o.pieceHead b noticeAddr with final := root }.payload []) [] b

/-- RANK_ARRIVE. -/
def execRankArrive (site tag : Nat) (s : State) : Host.Outcome State Fault Refusal := bodyStep (rankArrive site tag) s

/-- The close condition under the live rule: the CLOSE to record (R388). -/
def liveClose (e : Env) (o : CpOp) (b : Body) : Option Nat :=
  let m := ringMembers o b
  if o.arrived &&& m = m then some 0
  else if o.straggler = 0 then none
  else match o.minAt with
    | none => none
    | some t =>
      if !(o.whenLate || kickDue e.now o.whistle) then none
      else some (if o.whenLate || decide (serialDiff o.whistle t 32 < 0) then 2 else 1)

/-- The root closes: lineup pieces, the lineup record, and its own segment (R389, R393). -/
def closeRoot (e : Env) (s : Nat) (o : CpOp) (lineup close : Nat) (log : Bool) (b : Body) : Body :=
  let t := e.now % 2 ^ 32
  let b := sendLineup e o lineup close t b
  let b := if log then { b with dev.tr.lineups := b.dev.tr.lineups ++ [o.record b lineup close t] } else b
  closeWith e s o lineup close t b

/-- Does a replayed record match the reduction (R394)? -/
def recordMatches (o : CpOp) (b : Body) (r : Nat) : Bool :=
  bitsOf r 0 48 == o.step && bitsOf r 48 16 == o.gen && bitsOf r 64 12 == o.collid && bitsOf r 80 16 == withAxis b.coord 0 0

/-- A close under replay (R394): by the record at the head of the log, or held on a mismatch. -/
def replayClose (e : Env) (s : Nat) (o : CpOp) (b : Body) : Body :=
  match vaRead e (trSquad b) whoLog (logSlot b) 32 b with
  | (.ok v, b) =>
    let r := ofBytes v
    if !bitOf r 255 then b
    else if !recordMatches o b r then
      (trEvent 1 b).modOp s o.tag fun x => { x with mismatch := true }
    else
      let l := bitsOf r 96 16
      if o.arrived &&& l = l then closeRoot e s o l 3 false (logNext b) else b
  | (_, b) => b

/-- REDUCTION_CLOSE (R388, R393, R394). -/
def reductionClose (s tag : Nat) (e : Env) (b : Body) : Body :=
  match b.opOf s tag with
  | none => b
  | some o =>
    let live := o.coll && o.reduces && o.when_ && o.status.isNone && !o.stale && !o.closed && o.rootPos == rankOf b o.ax
    if !live then b
    else if b.flag (oTr 0x38) 8 && !o.released then if o.mismatch then b else replayClose e s o b
    else if !b.dev.tr.lineups.isEmpty then b
    else match liveClose e o b with
      | some c => closeRoot e s o o.arrived c (!b.flag (oTr 0x38) 8) b
      | none => b

/-- REDUCTION_CLOSE. -/
def execReductionClose (site tag : Nat) (s : State) (clash : List Nat := []) : Host.Outcome State Fault Refusal :=
  clashStep clash (reductionClose site tag) s

/-- LINEUP_LOG_WRITE (R393): the oldest record goes to the slot at the head while its VALID is 0. -/
def lineupLogWrite (e : Env) (b : Body) : Body :=
  match b.dev.tr.lineups with
  | [] => b
  | r :: rest =>
    match vaRead e (trSquad b) whoLog (logSlot b) 32 b with
    | (.ok old, b) =>
      if bitOf (ofBytes old) 255 then b.setField (oTr 0x40) 5 1 1
      else match vaWrite e (trSquad b) whoLog (logSlot b) (leBytes r 32) b with
        | (.ok _, b) => (logNext { b with dev.tr.lineups := rest }).setField (oTr 0x40) 5 1 0
        | (_, b) => b
    | (_, b) => b

/-- LINEUP_LOG_WRITE. -/
def execLineupLogWrite (s : State) : Host.Outcome State Fault Refusal := bodyStep lineupLogWrite s

/-- REPLAY_RELEASE (R394): every reduction held on a mismatch closes under the live rule from now on. -/
def replayRelease (b : Body) : Body :=
  overList (List.range 408) (fun s b =>
    if (b.site s).cp.ops.any (·.mismatch) then
      b.modSite s fun t => { t with cp := { t.cp with ops := t.cp.ops.map fun o =>
        if o.mismatch then { o with mismatch := false, released := true } else o } }
    else b) b

/-- REPLAY_RELEASE. -/
def execReplayRelease (ag : Agent) (s : State) : Host.Outcome State Fault Refusal :=
  bodyStep (fun e b => guarded e ag (oTr 0x38) b (replayRelease b)) s

/-- The carry table cleared, its bits counted (R391). -/
def clearCarry (b : Body) : Body :=
  let n := b.dev.tr.carry.length
  let b := { b with dev.tr.carry := [] }.setField (oTr 0x40) 16 13 0
  b.setField (oTr 0x48) 0 32 (min (b.field (oTr 0x48) 0 32 + n) (2 ^ 32 - 1))

/-- CLEAR_CARRY. -/
def execClearCarry (ag : Agent) (s : State) : Host.Outcome State Fault Refusal :=
  bodyStep (fun e b => guarded e ag (oTr 0x38) b (clearCarry b)) s

-- Layout generations (R408).

/-- Operations of `p` at every site changed. -/
def mapOps (p : Body → CpOp → Bool) (f : Nat → CpOp → Body → Body) (b : Body) : Body :=
  overList (List.range 408) (fun s b => overList ((b.site s).cp.ops.filter (p b)) (f s) b) b

/-- Steps 3 of R408: collectives of an older generation launch nothing further and are not closed. -/
def staleColl (s : Nat) (o : CpOp) (b : Body) : Body :=
  dropWaiting s o.tag (b.modOp s o.tag fun x => { x with stale := true })

/-- Step 4 of R408: an operation whose frame is held after a NOTREADY and is now older completes STALE; a collective does so
under step 5, without waiting for that frame. -/
def staleHeld (o : Nat × Nat) (b : Body) : Body :=
  match b.opOf o.1 o.2 with
  | some x => if x.coll then ownerDone o (b.modOp o.1 o.2 fun y => { y with stale := true }) else endOp o.1 o.2 cpStale b
  | none => b

/-- The held frames of older generations of one flow. -/
def staleFlow (k : Nat) (b : Body) : Body :=
  let old := fun (t : TxFrame) => t.held.isSome && decide (serialDiff (headOf t.f).gen b.gen 16 < 0)
  let l := (b.flow k).unacked.filter old
  if l.isEmpty then b
  else overList (l.flatMap (·.owners)) staleHeld
    (b.modFlow k fun fl => { fl with unacked := mapWhere fl.unacked old fun t => { t with owners := [] } })

/-- A newer layout generation takes effect (R408). -/
def newGen (e : Env) (g : Nat) (b : Body) : Body :=
  let b := b.putCsr (oTr 0x08) g
  let b := { b with dev.eff := b.dev.eff.set (oTr 0x20) (BitVec.ofNat 64 (b.csr (oTr 0x20))) }
  let b := clearCarry b
  let b := { b with dev.tr.closedColl := [], dev.tr.served := [] }
  let b := mapOps (fun b o => o.coll && o.status.isNone && o.old b) staleColl b
  let b := overList (b.dev.fab.flows.map (·.1)) staleFlow b
  trEvent 4 (readyFor e 0 (fun _ => true) b)

/-- TR_GEN_WRITE (R408): accepted only for a newer generation. -/
def trGenWrite (e : Env) (ag : Agent) (v : Nat) (b : Body) : Body :=
  if mayWrite ag (oTr 0x08) && decide (0 < serialDiff (bitsOf v 0 16) b.gen 16) then newGen e (bitsOf v 0 16) b
  else csrError e ag (oTr 0x08) b

/-- TR_GEN_WRITE. -/
def execTrGenWrite (ag : Agent) (v : Word64) (s : State) : Host.Outcome State Fault Refusal :=
  bodyStep (fun e b => trGenWrite e ag v.toNat b) s

/-- STALE_COLLECTIVE_FINISH (step 5 of R408): its launched pieces settled, a staled collective copies its contribution to
RET, and ends STALE with no lineup. -/
def staleFinish (s tag : Nat) (e : Env) (b : Body) : Body :=
  match b.opOf s tag with
  | none => b
  | some o =>
    if !(o.coll && o.stale && o.status.isNone && o.await_ == 0) then b
    else if !o.reduces then endOp s tag cpStale b
    else match copyToRet e s o b with
      | (none, b) => b
      | (some st, b) => endOp s tag (if st = cpOk then cpStale else st) b

/-- STALE_COLLECTIVE_FINISH. -/
def execStaleCollectiveFinish (site tag : Nat) (s : State) (clash : List Nat := []) : Host.Outcome State Fault Refusal :=
  clashStep clash (staleFinish site tag) s

end Sys2Proof.Machine
end

