-- ==== Sys2Proof/Machine/CoreFp.lean ====
section
/-! DEFINITION. The FP rows of the control core (R172, R173): OPF and FMA. -/
namespace Sys2Proof.Machine

/-- The format that S chooses (R172). -/
def fpFmt (s : Bool) : Nat := if s then 1 else 0

/-- An FP register read in a format: an FP32 read takes bits [31:0] (R166). -/
def CoreSt.fval (c : CoreSt) (fmt : Nat) (r : RegNo) : Nat := bitsOf (c.getF r).toNat 0 (fmtWidth fmt)

/-- FFLAGS collects bits [5:0] of the flag word (R173, R204). -/
def CoreSt.addFlags (c : CoreSt) (f : FFlags) : CoreSt := { c with fflags := c.fflags ||| f.truncate 6 }

/-- The word of an OPF instruction. -/
def wordF (o : OpfBits) (op : Nat) : Nat :=
  wordR 0x13 o.rd o.rs1 o.rs2 (b2n o.s * 1024 + b2n o.rdef * 512 + b2n o.rsel * 256 + o.rsv.toNat * 32 + op)

/-- The rounding that an instruction uses, stream 5 of R68 with the tile number, STEP and FPRC (R173). -/
def coreSel (b : Body) (s : Nat) (sr : Bool) : Sel :=
  let c := (b.site s).core
  elemSel sr (b.csr (oTr 0)) 5 ((b.tileOf s).getD 0) c.fprc.toNat 0 c.step.toNat

/-- FPRC advances by one for a rounding instruction that resolved to SR (R173). -/
def CoreSt.countFp (c : CoreSt) (sr : Bool) : CoreSt := if sr then { c with fprc := c.fprc + 1 } else c

/-- An FP instruction: `rounds` says whether it rounds to a format, given the FMODE it uses; `f` gives the core with its
result and the flags. -/
def fpRow (site word : Nat) (rdef rsel : Bool) (bad : Bool) (rounds : BitVec 6 → Bool)
    (f : CoreSt → Sel → CoreSt × FFlags) (e : Env) (b : Body) : Body :=
  coreGo e site word {} (fun _ => illegalIf bad) (fun b =>
    let c := (b.site site).core
    let sr := rounds c.fmodeUsed && resolveSr c.fmodeUsed rdef rsel
    let (c', fl) := f c (coreSel b site sr)
    .done (b.modSite site fun t => { t with core := (c'.addFlags fl).countFp sr })) b

/-- An OPF instruction. -/
def opf (op site : Nat) (o : OpfBits) (bad : Bool) (rounds : BitVec 6 → Bool)
    (f : CoreSt → Sel → CoreSt × FFlags) (e : Env) (b : Body) : Body :=
  fpRow site (wordF o op) o.rdef o.rsel (o.rsv != 0 || bad) rounds f e b

/-- A result written to an FP register: bits above its format are zero (R166). -/
def CoreSt.putF (c : CoreSt) (r : RegNo) (v : Nat × FFlags) : CoreSt × FFlags := (c.setF r (BitVec.ofNat 64 v.1), v.2)

/-- A result written to a scalar register. -/
def CoreSt.putX (c : CoreSt) (r : RegNo) (v : Nat × FFlags) : CoreSt × FFlags := (c.setX r (BitVec.ofNat 64 v.1), v.2)

/-- An arithmetic instruction of two FP operands. -/
def opf2 (op : Nat) (f : Nat → Nat → Nat → Sel → Nat × FFlags) (site : Nat) (o : OpfBits) (e : Env) (b : Body) : Body :=
  opf op site o false (fun _ => true)
    (fun c sel => c.putF o.rd (f (fpFmt o.s) (c.fval (fpFmt o.s) o.rs1) (c.fval (fpFmt o.s) o.rs2) sel)) e b

/-- FADD (R173). -/
def execFadd (site : Nat) (o : OpfBits) (s : State) : Host.Outcome State Fault Refusal := bodyStep (opf2 0x00 fpAdd site o) s

/-- FSUB (R173). -/
def execFsub (site : Nat) (o : OpfBits) (s : State) : Host.Outcome State Fault Refusal := bodyStep (opf2 0x01 fpSub site o) s

/-- FMUL (R173). -/
def execFmul (site : Nat) (o : OpfBits) (s : State) : Host.Outcome State Fault Refusal := bodyStep (opf2 0x02 fpMul site o) s

/-- FDIV (R173). -/
def execFdiv (site : Nat) (o : OpfBits) (s : State) : Host.Outcome State Fault Refusal := bodyStep (opf2 0x03 fpDiv site o) s

/-- FSQRT (R173): RS2 must name f0 (R172). -/
def execFsqrt (site : Nat) (o : OpfBits) (s : State) : Host.Outcome State Fault Refusal :=
  bodyStep (opf 0x04 site o (o.rs2 != 0) (fun _ => true)
    (fun c sel => c.putF o.rd (fpSqrt (fpFmt o.s) (c.fval (fpFmt o.s) o.rs1) sel))) s

/-- FMIN and FMAX (R141): no rounding. -/
def fpExtreme (op : Nat) (hi : Bool) (site : Nat) (o : OpfBits) (e : Env) (b : Body) : Body :=
  opf op site o false (fun _ => false)
    (fun c _ =>
      let r := fpMinMax hi (fpFmt o.s) (c.fval (fpFmt o.s) o.rs1) (c.fval (fpFmt o.s) o.rs2)
      c.putF o.rd (r.1, r.2.1)) e b

/-- FMIN (R141). -/
def execFmin (site : Nat) (o : OpfBits) (s : State) : Host.Outcome State Fault Refusal :=
  bodyStep (fpExtreme 0x05 false site o) s

/-- FMAX (R141). -/
def execFmax (site : Nat) (o : OpfBits) (s : State) : Host.Outcome State Fault Refusal :=
  bodyStep (fpExtreme 0x06 true site o) s

/-- A compare into a scalar register (R141, R172). -/
def fpCmp (op cmp : Nat) (site : Nat) (o : OpfBits) (e : Env) (b : Body) : Body :=
  opf op site o false (fun _ => false)
    (fun c _ =>
      let r := fpCompare cmp (fpFmt o.s) (c.fval (fpFmt o.s) o.rs1) (c.fval (fpFmt o.s) o.rs2)
      c.putX o.rd (b2n r.1, r.2)) e b

/-- FCEQ (R141). -/
def execFceq (site : Nat) (o : OpfBits) (s : State) : Host.Outcome State Fault Refusal := bodyStep (fpCmp 0x07 0 site o) s

/-- FCLT (R141). -/
def execFclt (site : Nat) (o : OpfBits) (s : State) : Host.Outcome State Fault Refusal := bodyStep (fpCmp 0x08 1 site o) s

/-- FCLE (R141). -/
def execFcle (site : Nat) (o : OpfBits) (s : State) : Host.Outcome State Fault Refusal := bodyStep (fpCmp 0x09 2 site o) s

/-- A conversion between formats; it rounds where the destination does not hold every source value (R59, R173). -/
def fpConvert (op : Nat) (src dst : BitVec 6 → Nat) (site : Nat) (o : OpfBits) (e : Env) (b : Body) : Body :=
  opf op site o false (fun m => !holdsAll (dst m) (src m))
    (fun c sel => c.putF o.rd (convertElem (src c.fmodeUsed) (dst c.fmodeUsed) (c.fval (src c.fmodeUsed) o.rs1) sel)) e b

/-- FCV.W (R172): FP32 to FP64 when S = 0, FP64 to FP32 when S = 1. -/
def execFcvW (site : Nat) (o : OpfBits) (s : State) : Host.Outcome State Fault Refusal :=
  bodyStep (fpConvert 0x0A (fun _ => fpFmt (!o.s)) (fun _ => fpFmt o.s) site o) s

/-- FCV.TOI (R173): to a 64-bit integer under R58. -/
def execFcvToi (site : Nat) (o : OpfBits) (s : State) : Host.Outcome State Fault Refusal :=
  bodyStep (opf 0x0B site o false (fun _ => true)
    (fun c sel =>
      let (x, f) := readElem (fpFmt o.s) (c.fval (fpFmt o.s) o.rs1)
      let (i, g) := roundInt 64 x sel
      c.putX o.rd (uBits 64 i, f ||| g))) s

/-- FCV.FROMI (R172): a signed 64-bit integer to a float. -/
def execFcvFromi (site : Nat) (o : OpfBits) (s : State) : Host.Outcome State Fault Refusal :=
  bodyStep (opf 0x0C site o false (fun _ => true)
    (fun c sel => c.putF o.rd (roundFloat (fpFmt o.s) (Num.ofInt (c.getX o.rs1).toInt) sel))) s

/-- FMOVX (R172): the bits of an FP register to a scalar register. -/
def execFmovx (site : Nat) (o : OpfBits) (s : State) : Host.Outcome State Fault Refusal :=
  bodyStep (opf 0x0D site o false (fun _ => false) (fun c _ => c.putX o.rd (c.fval (fpFmt o.s) o.rs1, 0))) s

/-- XMOVF (R172): the bits of a scalar register to an FP register. -/
def execXmovf (site : Nat) (o : OpfBits) (s : State) : Host.Outcome State Fault Refusal :=
  bodyStep (opf 0x0E site o false (fun _ => false)
    (fun c _ => c.putF o.rd (bitsOf (c.getX o.rs1).toNat 0 (fmtWidth (fpFmt o.s)), 0))) s

/-- FCV.TODF (R172): to FMODE.DFMT, packed into the low bits. -/
def execFcvTodf (site : Nat) (o : OpfBits) (s : State) : Host.Outcome State Fault Refusal :=
  bodyStep (fpConvert 0x0F (fun _ => fpFmt o.s) fmodeDfmt site o) s

/-- FCV.FROMDF (R172): from FMODE.DFMT. -/
def execFcvFromdf (site : Nat) (o : OpfBits) (s : State) : Host.Outcome State Fault Refusal :=
  bodyStep (fpConvert 0x10 fmodeDfmt (fun _ => fpFmt o.s) site o) s

/-- FMA (R173): fd ← fs1 × fs2 + fs3, rounded once. Reserved bits [2:0] must be zero (R169). -/
def execFma (site : Nat) (fd fs1 fs2 fs3 : RegNo) (sg rdef rsel : Bool) (rsv : BitVec 3) (s : State) :
    Host.Outcome State Fault Refusal :=
  bodyStep (fpRow site
    (wordR 0x14 fd fs1 fs2 (fs3.toNat * 64 + b2n sg * 32 + b2n rdef * 16 + b2n rsel * 8 + rsv.toNat))
    rdef rsel (rsv != 0) (fun _ => true)
    (fun c sel => c.putF fd (fpFma (fpFmt sg) (c.fval (fpFmt sg) fs1) (c.fval (fpFmt sg) fs2) (c.fval (fpFmt sg) fs3) sel))) s

end Sys2Proof.Machine
end

