-- ==== Sys2Proof/Machine/CoreSys.lean ====
section
/-! DEFINITION. Waits and fences (R189 to R191), special registers (R204 to R206), summary reads (R192), traps and
returns (R195, R202), interrupts (R201), and engine issue (R187). -/
namespace Sys2Proof.Machine

/-- A place that takes no delay slot (R176). -/
def waitPlace : Place := { slot := false }

/-- Does a completion counter meet its target (R189)? -/
def CoreSt.counted (c : CoreSt) (cc : BitVec 4) (target : BitVec 32) : Bool :=
  0 ≤ serialDiff (c.cc.get 0 cc.toNat).toNat target.toNat 32

/-- Is what a wait waits for there (R189 to R191)? -/
def waitMet (e : Env) (b : Body) (s : Nat) (w : Wait) : Bool :=
  match w with
  | .waitc cc t => (b.site s).core.counted cc t
  | .waitk k => kickDue e.now k.toNat
  | .fenceM => true
  | .fenceE => (b.site s).enginesIdle
  | .pfence ep => oldEpochDone b s ep
  | .fenceA => (b.site s).enginesIdle

/-- The LATE report of a WAITK that completes (R190, R312). -/
def waitLate (e : Env) (s : Nat) (w : Wait) (b : Body) : Body :=
  match w with
  | .waitk k =>
    if kickLate e.now k.toNat then (b.countLate).modSite s fun t => { t with core := { t.core with late := true } } else b
  | _ => b

/-- Does the wait look at EPEND (R193)? -/
def Wait.checksEpend : Wait → Bool
  | .waitk _ => false
  | _ => true

/-- A wait begins: ENGINE_ERR at JOB with an EPEND bit set (R193), completion at once where its condition holds, else
the core waits. -/
def beginWait (e : Env) (s : Nat) (w : Wait) (b : Body) : CoreRes :=
  let c := (b.site s).core
  if w.checksEpend && !c.priv && c.epend != 0 then .exc 0x0A c.epend.toNat b
  else if waitMet e b s w then .done (waitLate e s w b)
  else .hold (b.modSite s fun t => { t with core := { t.core with wait := some w } })

/-- A waiting core completes the wait `p` names, once its condition holds. -/
def endWait (s : Nat) (p : Wait → Bool) (e : Env) (b : Body) : Body :=
  let c := (b.site s).core
  match c.wait with
  | none => b
  | some w =>
    if c.stopped || !p w || !waitMet e b s w then b
    else
      let b := b.modSite s fun t => { t with core := { t.core with wait := none } }
      finish e s (.done (waitLate e s w b))

/-- WAITC (R189). -/
def execWaitc (site : Nat) (cc : BitVec 4) (rsvA : Bool) (rs1 : RegNo) (rsvB : BitVec 16) (s : State) :
    Host.Outcome State Fault Refusal :=
  bodyStep (fun e b => coreGo e site
    (0x22 * 2 ^ 26 + cc.toNat * 2 ^ 22 + b2n rsvA * 2 ^ 21 + rs1.toNat * 2 ^ 16 + rsvB.toNat) waitPlace
    (fun _ => illegalIf (rsvA || rsvB != 0))
    (fun b => beginWait e site (.waitc cc (((b.site site).core.getX rs1).truncate 32)) b) b) s

/-- WAITC_SATISFIED (R189). -/
def execWaitcSatisfied (site : Nat) (s : State) : Host.Outcome State Fault Refusal :=
  bodyStep (endWait site fun w => match w with | .waitc _ _ => true | _ => false) s

/-- WAITK (R190). -/
def execWaitk (site : Nat) (rsvA : BitVec 5) (rs1 : RegNo) (rsvB : BitVec 16) (s : State) :
    Host.Outcome State Fault Refusal :=
  bodyStep (fun e b => coreGo e site
    (0x23 * 2 ^ 26 + rsvA.toNat * 2 ^ 21 + rs1.toNat * 2 ^ 16 + rsvB.toNat) waitPlace
    (fun _ => illegalIf (rsvA != 0 || rsvB != 0))
    (fun b => beginWait e site (.waitk (((b.site site).core.getX rs1).truncate 32)) b) b) s

/-- WAITK_DUE (R190). -/
def execWaitkDue (site : Nat) (s : State) : Host.Outcome State Fault Refusal :=
  bodyStep (endWait site fun w => match w with | .waitk _ => true | _ => false) s

/-- A fence of a kind (R191). -/
def fence (kind : Nat) (w : Body → Wait) (site : Nat) (rsv : BitVec 22) (e : Env) (b : Body) : Body :=
  coreGo e site (0x24 * 2 ^ 26 + rsv.toNat * 2 ^ 4 + kind) waitPlace (fun _ => illegalIf (rsv != 0))
    (fun b => beginWait e site (w b) b) b

/-- FENCE.M (R191): the core's loads and stores complete as they execute. -/
def execFenceM (site : Nat) (rsv : BitVec 22) (s : State) : Host.Outcome State Fault Refusal :=
  bodyStep (fence 0 (fun _ => .fenceM) site rsv) s

/-- FENCE.E (R191). -/
def execFenceE (site : Nat) (rsv : BitVec 22) (s : State) : Host.Outcome State Fault Refusal :=
  bodyStep (fence 1 (fun _ => .fenceE) site rsv) s

/-- PFENCE (R296): records the epoch current when it begins. -/
def execPfence (site : Nat) (rsv : BitVec 22) (s : State) : Host.Outcome State Fault Refusal :=
  bodyStep (fence 2 (fun b => .pfence b.epoch) site rsv) s

/-- FENCE.A (R191). -/
def execFenceA (site : Nat) (rsv : BitVec 22) (s : State) : Host.Outcome State Fault Refusal :=
  bodyStep (fence 3 (fun _ => .fenceA) site rsv) s

/-- FENCE_COMPLETE (R191). -/
def execFenceComplete (site : Nat) (s : State) : Host.Outcome State Fault Refusal :=
  bodyStep (endWait site fun w => match w with | .waitc _ _ | .waitk _ => false | _ => true) s

-- Special registers (R204).

/-- The listed width of a special register as a mask; none where the number is unlisted. -/
def sprMask (sr : Nat) : Option Nat :=
  let pc := 0x1F_FFFC
  if sr = 0x000 || sr = 0x001 then some 0x3F
  else if sr = 0x002 then some (2 ^ 48 - 1)
  else if sr = 0x003 then some (2 ^ 40 - 1)
  else if sr = 0x004 || sr = 0x102 || sr = 0x105 then some (2 ^ 64 - 1)
  else if sr = 0x008 || sr = 0x00B || sr = 0x108 || sr = 0x10B || sr = 0x101 then some (2 ^ 32 - 1)
  else if (0x009 ≤ sr && sr ≤ 0x00D) || (0x109 ≤ sr && sr ≤ 0x10D) || sr = 0x100 then some pc
  else if 0x010 ≤ sr && sr ≤ 0x01F then some (2 ^ 32 - 1)
  else if sr = 0x020 then some 0xF
  else if sr = 0x103 then some 0x1F
  else if sr = 0x104 then some 0x1F_FFC0
  else if sr = 0x106 || sr = 0x107 then some 0x7
  else none

/-- One of the six loop registers. -/
def LoopBank.reg (l : LoopBank) (i : Nat) : Nat :=
  match i with
  | 0 => l.l0.lc.toNat | 1 => l.l0.ls.toNat | 2 => l.l0.le.toNat
  | 3 => l.l1.lc.toNat | 4 => l.l1.ls.toNat | _ => l.l1.le.toNat

/-- One of the six loop registers written. -/
def LoopBank.put (l : LoopBank) (i v : Nat) : LoopBank :=
  match i with
  | 0 => { l with l0 := { l.l0 with lc := BitVec.ofNat 32 v } }
  | 1 => { l with l0 := { l.l0 with ls := BitVec.ofNat 21 v } }
  | 2 => { l with l0 := { l.l0 with le := BitVec.ofNat 21 v } }
  | 3 => { l with l1 := { l.l1 with lc := BitVec.ofNat 32 v } }
  | 4 => { l with l1 := { l.l1 with ls := BitVec.ofNat 21 v } }
  | _ => { l with l1 := { l.l1 with le := BitVec.ofNat 21 v } }

/-- ESTAT (R206). -/
def CoreSt.estat (c : CoreSt) : Nat := b2n c.priv + b2n c.ppriv * 4 + b2n c.ie * 8 + b2n c.pie * 16

/-- What SPRD reads (R184, R204). -/
def sprGet (e : Env) (c : CoreSt) (sr : Nat) : Nat :=
  if sr = 0x000 then c.fmodeUsed.toNat
  else if sr = 0x001 then c.fflags.toNat
  else if sr = 0x002 then c.step.toNat
  else if sr = 0x003 then c.fprc.toNat
  else if sr = 0x004 then e.now
  else if 0x008 ≤ sr && sr ≤ 0x00D then c.loops.reg (sr - 0x008)
  else if 0x010 ≤ sr && sr ≤ 0x01F then (c.cc.get 0 (sr - 0x010)).toNat
  else if sr = 0x020 then c.epend.toNat
  else if sr = 0x100 then c.epc.toNat
  else if sr = 0x101 then c.excInfo.toNat
  else if sr = 0x102 then c.excAddr.toNat
  else if sr = 0x103 then c.estat
  else if sr = 0x104 then c.evbase.toNat
  else if sr = 0x105 then c.scratch.toNat
  else if sr = 0x106 then c.ien.toNat
  else if sr = 0x107 then c.ipend.toNat
  else if 0x108 ≤ sr && sr ≤ 0x10D then c.jobLoop.reg (sr - 0x108)
  else 0

/-- A special register takes a value. A write of FMODE opens its shadow over the next two instructions (R184); its own
retirement is counted in. -/
def sprPut (c : CoreSt) (sr v : Nat) : CoreSt :=
  if sr = 0x000 then { c with fmode := BitVec.ofNat 6 v, shOld := c.fmode, shLeft := 3 }
  else if sr = 0x001 then { c with fflags := BitVec.ofNat 6 v }
  else if sr = 0x002 then { c with step := BitVec.ofNat 48 v }
  else if sr = 0x003 then { c with fprc := BitVec.ofNat 40 v }
  else if 0x008 ≤ sr && sr ≤ 0x00D then c.setLoops (c.loops.put (sr - 0x008) v)
  else if 0x010 ≤ sr && sr ≤ 0x01F then { c with cc := c.cc.set (sr - 0x010) (BitVec.ofNat 32 v) }
  else if sr = 0x020 then { c with epend := BitVec.ofNat 4 v }
  else if sr = 0x100 then { c with epc := BitVec.ofNat 21 v }
  else if sr = 0x101 then { c with excInfo := BitVec.ofNat 32 (v - bitsOf v 14 2 * 2 ^ 14) }
  else if sr = 0x102 then { c with excAddr := BitVec.ofNat 64 v }
  else if sr = 0x103 then { c with ppriv := bitOf v 2, ie := bitOf v 3, pie := bitOf v 4 }
  else if sr = 0x104 then { c with evbase := BitVec.ofNat 21 v }
  else if sr = 0x105 then { c with scratch := BitVec.ofNat 64 v }
  else if sr = 0x106 then { c with ien := BitVec.ofNat 3 v }
  else if sr = 0x107 then { c with ipend := BitVec.ofNat 3 v }
  else if 0x108 ≤ sr && sr ≤ 0x10D then { c with jobLoop := c.jobLoop.put (sr - 0x108) v }
  else c

/-- The three write forms (R204). -/
inductive SprForm where
  | put
  | set
  | clr
  deriving DecidableEq

/-- The value that a write form leaves: EPEND is set or cleared by bits (R193), IPEND is only cleared (R204). -/
def sprNew (form : SprForm) (sr old v : Nat) : Nat :=
  match form with
  | .put => if sr = 0x020 then old ||| v else if sr = 0x107 then old &&& (2 ^ 64 - 1 - v) else v
  | .set => if sr = 0x107 then old else old ||| v
  | .clr => old &&& (2 ^ 64 - 1 - v)

/-- May JOB only read the register (R194, R204)? -/
def sprReadOnlyAtJob (sr : Nat) : Bool := sr = 0x003 || sr = 0x004 || (0x008 ≤ sr && sr ≤ 0x00D) || sr = 0x020

/-- The word of an SPR instruction. -/
def wordSpr (rd rs1 : RegNo) (opc : Nat) (sr : BitVec 12) : Nat :=
  0x25 * 2 ^ 26 + rd.toNat * 2 ^ 21 + rs1.toNat * 2 ^ 16 + opc * 2 ^ 12 + sr.toNat

/-- SPRD (R204): ILLEGAL for an unlisted number or a source register, PRIV at JOB from 0x100 up. -/
def sprRead (site : Nat) (rd rs1 : RegNo) (sr : BitVec 12) (e : Env) (b : Body) : Body :=
  coreDo e site (wordSpr rd rs1 0 sr)
    (fun c => if (sprMask sr.toNat).isNone || rs1 != 0 then some 0x02
              else if !c.priv && 0x100 ≤ sr.toNat then some 0x03 else none)
    (fun c => c.setX rd (BitVec.ofNat 64 (sprGet e c sr.toNat))) b

/-- A special-register write (R204, R185, R194): ILLEGAL for an unlisted number, a destination register, a 1 outside the
listed width, an FMODE write in a shadow or of a reserved DFMT; PRIV at JOB; ignored for TIME at TILE_SUPER. -/
def sprWrite (form : SprForm) (opc site : Nat) (rd rs1 : RegNo) (sr : BitVec 12) (e : Env) (b : Body) : Body :=
  let n := sr.toNat
  coreDo e site (wordSpr rd rs1 opc sr)
    (fun c =>
      let v := (c.getX rs1).toNat
      match sprMask n with
      | none => some 0x02
      | some m =>
        if rd != 0 || v &&& m != v then some 0x02
        else if n = 0x000 && (c.shLeft != 0 || 8 < bitsOf (sprNew form n c.fmode.toNat v) 0 4) then some 0x02
        else if !c.priv && (0x100 ≤ n || sprReadOnlyAtJob n) then some 0x03 else none)
    (fun c => sprPut c n (sprNew form n (sprGet e c n) (c.getX rs1).toNat)) b

/-- SPRD (R204). -/
def execSprd (site : Nat) (rd rs1 : RegNo) (sr : BitVec 12) (s : State) : Host.Outcome State Fault Refusal :=
  bodyStep (sprRead site rd rs1 sr) s

/-- SPWR (R204). -/
def execSpwr (site : Nat) (rd rs1 : RegNo) (sr : BitVec 12) (s : State) : Host.Outcome State Fault Refusal :=
  bodyStep (sprWrite .put 1 site rd rs1 sr) s

/-- SPSET (R204). -/
def execSpset (site : Nat) (rd rs1 : RegNo) (sr : BitVec 12) (s : State) : Host.Outcome State Fault Refusal :=
  bodyStep (sprWrite .set 2 site rd rs1 sr) s

/-- SPCLR (R204). -/
def execSpclr (site : Nat) (rd rs1 : RegNo) (sr : BitVec 12) (s : State) : Host.Outcome State Fault Refusal :=
  bodyStep (sprWrite .clr 3 site rd rs1 sr) s

/-- What a summary slot reads as: all ones while it is not valid (R152). -/
def VxSt.summary (v : VxSt) (slot : Nat) : Word64 :=
  let s := v.sums.get { value := 0, kind := 0, valid := false } slot
  if s.valid then s.value else -1

/-- VSUM (R192). -/
def execVsum (site : Nat) (rd : RegNo) (f : Bool) (slot : BitVec 3) (rsv : BitVec 17) (s : State) :
    Host.Outcome State Fault Refusal :=
  bodyStep (fun e b => coreGo e site
    (0x26 * 2 ^ 26 + rd.toNat * 2 ^ 21 + b2n f * 2 ^ 20 + slot.toNat * 2 ^ 17 + rsv.toNat) {}
    (fun _ => illegalIf (rsv != 0))
    (fun b => .done (b.modSite site fun t =>
      let v := t.vx.summary slot.toNat
      { t with core := if f then t.core.setF rd v else t.core.setX rd v })) b) s

/-- A place that takes neither a delay slot nor the end of a loop body (R176, R181). -/
def sysPlace : Place := { slot := false, last := false }

/-- TRAP (R195): EXC_ADDR holds its code. -/
def execTrap (site : Nat) (code : BitVec 12) (rsv : BitVec 10) (s : State) : Host.Outcome State Fault Refusal :=
  bodyStep (fun e b => coreGo e site (0x27 * 2 ^ 26 + rsv.toNat * 2 ^ 16 + code.toNat * 2 ^ 4) sysPlace
    (fun _ => illegalIf (rsv != 0)) (fun b => .exc 0x09 code.toNat b) b) s

/-- ERET (R202): PRIV at JOB. -/
def execEret (site : Nat) (rsv : BitVec 22) (s : State) : Host.Outcome State Fault Refusal :=
  bodyStep (fun e b => coreGo e site (0x27 * 2 ^ 26 + rsv.toNat * 2 ^ 4 + 1) sysPlace
    (fun c => if rsv != 0 then some 0x02 else if !c.priv then some 0x03 else none)
    (fun b => .raw (b.modSite site fun t => { t with core := t.core.eret })) b) s

/-- INTERRUPT_ENTRY (R201): an enabled pending interrupt is taken at a boundary, or while the core waits or stalls. -/
def interruptEntry (site : Nat) (b : Body) : Body :=
  let c := (b.site site).core
  match c.interrupt with
  | none => b
  | some (cause, _) =>
    if 408 ≤ site || c.stopped || c.dslot.isSome then b
    else
      let c' := c.takeInterrupt cause (if cause = 0x11 then c.preemptSquad else 0)
      b.modSite site fun t => { t with core := c' }

/-- INTERRUPT_ENTRY. -/
def execInterruptEntry (site : Nat) (s : State) : Host.Outcome State Fault Refusal :=
  bodyStep (fun _ b => interruptEntry site b) s

/-- Does a word encode nothing (R170 to R172, R191, R195, R204, R217)? -/
def reservedWord (w : Nat) : Bool :=
  let func := bitsOf w 0 11
  match bitsOf w 26 6 with
  | 0x00 => 0x10 < func
  | 0x13 => 0x10 < bitsOf w 0 5
  | 0x15 | 0x16 | 0x17 => true
  | 0x24 => 3 < bitsOf w 0 4
  | 0x25 => 3 < bitsOf w 12 4
  | 0x27 => 1 < bitsOf w 0 4
  | 0x28 => 5 < func
  | m => 0x2D ≤ m

/-- ENGINE_ISSUE (R187): an engine instruction enters its queue or stalls. A word that encodes nothing raises ILLEGAL;
a word of another row is no engine instruction and has no effect here. -/
def engineIssue (site : Nat) (w : Word32) (e : Env) (b : Body) : Body :=
  let m := bitsOf w.toNat 26 6
  if 0x29 ≤ m && m ≤ 0x2C then coreGo e site w.toNat {} (fun _ => none) (issueWord site w) b
  else if reservedWord w.toNat then coreGo e site w.toNat {} (fun _ => some 0x02) (fun b => .raw b) b
  else b

/-- ENGINE_ISSUE. -/
def execEngineIssue (site : Nat) (w : Word32) (s : State) : Host.Outcome State Fault Refusal :=
  bodyStep (engineIssue site w) s

-- TL_ core registers (R207 to R211).

/-- Has the deadline core of a called tile yielded? It stays stopped until the return completes (R477). -/
def deadlineYielded (b : Body) (site : Nat) : Bool :=
  (b.site site).yielded && match b.tileOf site with
    | none => false
    | some tile => (List.range 8).any fun q =>
      let base := b.field (oSq q 8) 8 9
      2 ≤ b.field (oSq q 0x28) 0 2 && base ≤ tile && tile < base + b.field (oSq q 8) 17 7

/-- CORE_START (R208): resumes at TL_CORE_PC; after reset or a double fault in TILE_SUPER, clearing DOUBLE. A deadline core
that has yielded stays stopped (R477). -/
def coreStart (site : Nat) (b : Body) : Body :=
  let c := (b.site site).core
  if 408 ≤ site || !c.stopped || deadlineYielded b site || (b.tileOf site).isNone then b
  else
    let sup := c.fresh || c.double
    b.modSite site fun t => { t with core :=
      { c with stopped := false, stopReq := false, fresh := false, double := false, priv := c.priv || sup } }

/-- CORE_START. -/
def execCoreStart (ag : Agent) (site : Nat) (s : State) : Host.Outcome State Fault Refusal :=
  bodyStep (fun e b => atSite site b (guarded e ag (oTl site 0x100) b (coreStart site b))) s

/-- A core stops at its next boundary; a stopped wait or stall restarts on START (R201, R208). -/
def CoreSt.stop (c : CoreSt) : CoreSt :=
  if c.stopped then c
  else if c.dslot.isSome then { c with stopReq := true }
  else { c with stopped := true, wait := none, issue := none, mstall := none }

/-- CORE_STOP (R208). -/
def execCoreStop (ag : Agent) (site : Nat) (s : State) : Host.Outcome State Fault Refusal :=
  bodyStep (fun e b => atSite site b (guarded e ag (oTl site 0x100) b (b.modSite site fun t => { t with core := t.core.stop }))) s

/-- An IPEND bit set: 0 HOST, 1 PREEMPT, 2 MP (R204). -/
def Body.setIpend (b : Body) (s bit : Nat) : Body :=
  b.modSite s fun t => { t with core := { t.core with ipend := t.core.ipend ||| BitVec.ofNat 3 (2 ^ bit) } }

/-- IRQH (R208). -/
def execIrqh (ag : Agent) (site : Nat) (s : State) : Host.Outcome State Fault Refusal :=
  bodyStep (fun e b => atSite site b (guarded e ag (oTl site 0x100) b (b.setIpend site 0))) s

/-- IRQM (R208): only the MP may raise it. -/
def execIrqm (ag : Agent) (site : Nat) (s : State) : Host.Outcome State Fault Refusal :=
  bodyStep (fun e b => atSite site b (if ag = .mp then b.setIpend site 2 else csrError e ag (oTl site 0x100) b)) s

/-- TL_CORE_PC_WRITE (R210): only while the core is stopped; it ends any pending FMODE shadow. -/
def corePcWrite (ag : Agent) (site : Nat) (v : Word64) (e : Env) (b : Body) : Body :=
  let c := (b.site site).core
  if !mayWrite ag (oTl site 0x110) || !c.stopped then csrError e ag (oTl site 0x110) b
  else b.modSite site fun t => { t with core :=
    { c with pc := BitVec.ofNat 21 (bitsOf v.toNat 2 19 * 4), shLeft := 0, dslot := none } }

/-- TL_CORE_PC_WRITE. -/
def execTlCorePcWrite (ag : Agent) (site : Nat) (v : Word64) (s : State) : Host.Outcome State Fault Refusal :=
  bodyStep (fun e b => atSite site b (corePcWrite ag site v e b)) s

end Sys2Proof.Machine
end

