-- ==== Sys2Proof/Machine/Frames.lean ====
section
/-! DEFINITION. What the DATA frames of the operations do where they arrive (R363 to R367, R372, R376, R379, R387 to R390,
R407, R409), and what a flow reset leaves (R344, R375). -/
namespace Sys2Proof.Machine

/-- A STATUS answer to a frame that was not written (R363, R365). -/
def refuseStatus (e : Env) (f : Frame) (st : Nat) (b : Body) : Bool × Body := (true, refuseFrame e f 10 st [] b)

/-- A STATUS answer (R367). -/
def answerStatus (e : Env) (f : Frame) (st : Nat) (b : Body) : Bool × Body := (true, answerFrame e f 10 st [] b)

/-- The generation of a frame against the device's (R376): negative older, positive newer. -/
def genOf (b : Body) (h : OpHdr) : Int := serialDiff h.gen b.gen 16

-- Puts (R364 to R366).

/-- A line as the overlap table names it: a site's SRAM line, or a line of a context. -/
def lineKey (b : Body) (h : OpHdr) (a : Nat) : Nat :=
  (if a < 2 ^ 21 then siteBase (b.siteOf h.rtile) + a else 2 ^ 60 + h.rctx * 2 ^ 52 + a) / 64

/-- One line of a put in the overlap table (R366): another operation's line of the same step is counted. -/
def overlapLine (h : OpHdr) (l : Nat) (b : Body) : Body :=
  let op := h.orig * 2 ^ 16 + h.tag
  let r := b.dev.fab.recent
  let same := fun (x : Nat × Nat × Nat) => x.1 == l && x.2.1 == h.step
  let b := if r.any (fun x => same x && x.2.2 != op) then
      b.modSite (b.siteOf h.rtile) fun t => { t with cp := { t.cp with overlap := t.cp.overlap + 1 } } else b
  let r := r.filter (!same ·) ++ [(l, h.step, op)]
  { b with dev.fab.recent := r.drop (r.length - 65536) }

/-- Bytes of a put counted; TCC advances when the put is whole (R364). -/
def countPut (h : OpHdr) (n : Nat) (b : Body) : Body :=
  let mine := fun (x : Nat × Nat × Nat) => x.1 == h.orig && x.2.1 == h.tag
  let have_ := ((b.dev.fab.puts.filter mine).map (·.2.2)).sum + n
  let rest := b.dev.fab.puts.filter (!mine ·)
  if h.count ≤ have_ then advanceTcc h 1 { b with dev.fab.puts := rest }
  else { b with dev.fab.puts := rest ++ [(h.orig, h.tag, have_)] }

/-- A piece of a put at its destination. -/
def servePut (tid first : Nat) (e : Env) (f : Frame) (b : Body) : Bool × Body :=
  let h := headOf f
  if h.genchk && genOf b h < 0 then (true, refuseFrame e f 9 h.count f.body b)
  else if h.genchk && 0 < genOf b h then (true, notReady e f 0 b)
  else if !rctxOk b h.rtile h.rctx then refuseStatus e f cpRefused b
  else if digWaits b [(tid, 0, first, f.body.length * 8 / fmtWidth h.fmt)] then (false, b)
  else match sideWrite e (sideOf b h.rtile h.rctx whoInbox none) h.addr f.body b with
    | (.stall, b) => (false, b)
    | (.refused, b) => refuseStatus e f cpRefused b
    | (.ok _ st, b) =>
      let b := countPut h f.body.length
        (overList (rangeLines h.addr f.body.length) (fun l b => overlapLine h (lineKey b h l) b) b)
      if st = cpOk then (true, digRun tid h.fmt h.step first f.body b) else refuseStatus e f st b

/-- PUT_DATA. `tid` is the TID of the issuing descriptor and `first` the linear index of the piece's first element, under which
the writes are digested; the frame carries neither (R426; log entry 23). -/
def execPutData (s : State) (tid : BitVec 16 := 0) (first : BitVec 40 := 0) : Host.Outcome State Fault Refusal :=
  bodyStep (fun e b => serveInbox 1 (servePut tid.toNat first.toNat e) b) s

-- Get requests (R372, R376, R379).

/-- The bytes of a get go back in pieces (R367). -/
def sendGetData (e : Env) (f : Frame) (v : List Byte) (b : Body) : Body :=
  overList (piecesOf (pieceMax b) v) (fun p b => answerFrame e f 3 p.1 p.2 b) b

/-- A read for a get: served, refused, or waiting. -/
def serveRead (e : Env) (f : Frame) (d : Side) (a n : Nat) (b : Body) : Bool × Body :=
  match sideRead e d a n b with
  | (.stall, b) => (false, b)
  | (.refused, b) => answerStatus e f cpRefused b
  | (.ok v st, b) => (true, sendGetData e f v (if st = cpOk then b else (answerStatus e f st b).2))

/-- The address at which a rank serves a gather: its own SRC, or its reduced slot of DST (R378). -/
def CpOp.serveAddr (o : CpOp) (b : Body) : Nat :=
  if o.reduces then o.elemAddr o.dst (rankOf b o.ax * o.seg b) else o.src

/-- Does a collective match a frame: COLLID, STEP and GEN agree (R407)? -/
def CpOp.matches_ (o : CpOp) (collid : Nat) (h : OpHdr) : Bool :=
  o.coll && o.collid == collid && o.step == h.step && o.gen == h.gen

/-- The launched collective of a site and its operation that match a frame, first one of `pref`, then any (R379). -/
def findColl (b : Body) (collid : Nat) (h : OpHdr) (pref : CpOp → Bool) : Option (Nat × CpOp) :=
  let find := fun (p : CpOp → Bool) => (List.range 408).findSome? fun s =>
    ((b.site s).cp.ops.find? fun o => o.matches_ collid h && p o).map fun o => (s, o)
  match find pref with
  | some x => some x
  | none => find fun _ => true

/-- The collective of this rank that serves a request: launched, or completed in this generation (R407; log entry 41). -/
def servingOp (b : Body) (h : OpHdr) : Option (Nat × CpOp) :=
  match (findColl b h.ext h (·.op != 1)).filter fun x => x.2.status.isNone && !x.2.stale with
  | some x => some x
  | none => b.dev.tr.served.find? fun x => x.2.matches_ h.ext h

/-- A get of a collective at the rank that serves it. -/
def serveGather (e : Env) (f : Frame) (b : Body) : Bool × Body :=
  let h := headOf f
  if genOf b h < 0 then answerStatus e f cpStale b
  else match if 0 < genOf b h then none else servingOp b h with
    | none => (true, notReady e f h.ext b)
    | some (s, o) =>
      if o.reduces && !o.gather then (true, notReady e f h.ext b)
      else if h.fmt != o.dfmt || h.count != (if o.op = 4 then o.nelem else o.seg b) then answerStatus e f cpShape b
      else serveRead e f { o.here s with who := whoInbox } (o.serveAddr b) (o.slotBytes b) b

/-- A get request in transit at a combining device (R371, R372). -/
def combineGet (e : Env) (f : Frame) (b : Body) : Body :=
  match joinGet e f [f] [] b with
  | some b => b
  | none => sendData e (nextHop b (headOf f).final) f.tc.toNat false f.payload [] (openGet f [f] [] b)

/-- A get request. -/
def serveGet (e : Env) (f : Frame) (b : Body) : Bool × Body :=
  let h := headOf f
  if h.hop && h.final != b.coord then (true, combineGet e f b)
  else if h.rtile = collTile then serveGather e f b
  else if h.genchk && genOf b h < 0 then answerStatus e f cpStale b
  else if h.genchk && 0 < genOf b h then (true, notReady e f 0 b)
  else if !rctxOk b h.rtile h.rctx then answerStatus e f cpRefused b
  else serveRead e f (sideOf b h.rtile h.rctx whoInbox none) h.addr (packedBytes h.fmt h.count) b

/-- GET_REQ. -/
def execGetReq (s : State) : Host.Outcome State Fault Refusal := bodyStep (fun e b => serveInbox 2 (serveGet e) b) s

-- Returned data (R364, R372).

/-- A get's data written where its operation wants it; `none` while the write waits. -/
def landBytes (e : Env) (s : Nat) (o : CpOp) (h : OpHdr) (data : List Byte) (b : Body) : Option Nat × Body :=
  if o.coll then
    let j := axisOf h.final o.ax
    collStore e s o ((if o.op = 4 then 0 else j * o.seg b) + h.count * 8 / fmtWidth o.dfmt) data b
  else
    let i0 := h.count * 8 / fmtWidth o.sfmt
    cpStore e s o (o.here s) (o.laddr + i0 * fmtWidth o.dfmt / 8) i0 data b

/-- A piece of a get lands at one operation, once; the operation ends when every byte has been written. -/
def landGet (e : Env) (h : OpHdr) (data : List Byte) (p : Nat × Nat) (b : Body) : Bool × Body :=
  match b.opOf p.1 p.2 with
  | none => (true, b)
  | some o =>
    let key := (if o.coll then axisOf h.final o.ax else 0) * 2 ^ 32 + h.count
    if o.got.any (·.1 == key) then (true, b)
    else match landBytes e p.1 o h data b with
      | (none, b) => (false, b)
      | (some st, b) =>
        let b := b.modOp p.1 p.2 fun x => { x with got := x.got ++ [(key, data.length)] }
        let whole := !o.coll && o.remoteBytes ≤ o.gotFrom 0 + data.length
        (true, if st != cpOk then endOp p.1 p.2 st b else if whole then endOp p.1 p.2 cpOk b else b)

/-- A piece lands at several operations: false as soon as one waits. -/
def landAll (e : Env) (h : OpHdr) (data : List Byte) : List (Nat × Nat) → Body → Bool × Body
  | [], b => (true, b)
  | p :: l, b =>
    match landGet e h data p b with
    | (false, b) => (false, b)
    | (true, b) => landAll e h data l b

/-- Is it the entry of the get that a returned frame answers? -/
def entryOf (h : OpHdr) (x : CombEntry) : Bool :=
  x.open_.opc == 2 && (headOf x.open_).orig == h.orig && (headOf x.open_).tag == h.tag && (headOf x.open_).final == h.final

/-- Returned data goes to everyone who joined, and the entry closes after the last piece (R372). -/
def getDataRow (e : Env) (f : Frame) (b : Body) : Bool × Body :=
  let h := headOf f
  match b.dev.fab.comb.find? (entryOf h) with
  | some x =>
    match landAll e h f.body x.locals b with
    | (false, b) => (false, b)
    | (true, b) =>
      let b := overList x.joined (fun g b => answerFrame e g 3 h.count f.body b) b
      let n := x.count + f.body.length
      let whole := packedBytes (headOf x.open_).fmt (headOf x.open_).count ≤ n
      let l := b.dev.fab.comb
      let l := if whole then l.filter (!entryOf h ·)
        else mapWhere l (entryOf h) fun x => { x with count := n, pieces := x.pieces ++ [(h.count, f.body)] }
      (true, { b with dev.fab.comb := l })
  | none =>
    if h.orig = b.coord then
      match b.findTag h.tag with
      | some (s, _) => landGet e h f.body (s, h.tag) b
      | none => (true, b)
    else (true, sendData e (nextHop b h.orig) f.tc.toNat false f.payload [] b)

/-- GET_DATA. -/
def execGetData (s : State) (clash : List Nat := []) : Host.Outcome State Fault Refusal := clashStep clash (fun e b => serveInbox 3 (getDataRow e) b) s

-- Statuses and holding (R376, R379).

/-- A carried status at an operation: STALE leaves a collective its way of finishing (R408). -/
def statusOp (st : Nat) (p : Nat × Nat) (b : Body) : Body :=
  match b.opOf p.1 p.2 with
  | some o => if o.coll && st == cpStale then b.modOp p.1 p.2 fun x => { x with stale := true } else endOp p.1 p.2 st b
  | none => b

/-- A STATUS frame: through an entry to everyone who joined, else to its operation, else onward. -/
def statusRow (e : Env) (f : Frame) (b : Body) : Bool × Body :=
  let h := headOf f
  let st := h.count % 256
  match b.dev.fab.comb.find? (entryOf h) with
  | some x =>
    let b := overList x.joined (fun g b => answerFrame e g 10 st [] b) (overList x.locals (statusOp st) b)
    let l := b.dev.fab.comb
    let l := if st = cpMemUe then mapWhere l (entryOf h) fun x => { x with ue := true } else l.filter (!entryOf h ·)
    (true, { b with dev.fab.comb := l })
  | none =>
    if h.orig = b.coord then
      match b.findTag h.tag with
      | some (s, _) => (true, statusOp st (s, h.tag) b)
      | none => (true, b)
    else (true, sendData e (nextHop b h.orig) f.tc.toNat false f.payload [] b)

/-- STATUS. -/
def execStatus (s : State) : Host.Outcome State Fault Refusal := bodyStep (fun e b => serveInbox 10 (statusRow e) b) s

/-- Is it the sent frame that an answer with the same header names? -/
def answers (g : Frame) (t : TxFrame) : Bool :=
  let h := headOf g
  let k := headOf t.f
  k.tag == h.tag && k.orig == h.orig && k.final == h.final && k.addr == h.addr && k.rtile == h.rtile && k.step == h.step &&
    k.gen == h.gen && !t.acked

/-- NOTREADY (R376): the frame is held until READY. -/
def notreadyRow (f : Frame) (b : Body) : Bool × Body :=
  (true, b.modFlow (flowKey f.src.toNat f.tc.toNat) fun fl =>
    { fl with unacked := mapWhere fl.unacked (answers f) fun t => { t with held := some (headOf f).count } })

/-- NOTREADY. -/
def execNotready (s : State) : Host.Outcome State Fault Refusal := bodyStep (fun _ b => serveInbox 7 notreadyRow b) s

/-- The frames of a flow held for a COLLID are sent again. -/
def releaseFlow (e : Env) (collid k : Nat) (b : Body) : Body :=
  let l := (b.flow k).unacked.filter fun t => t.held == some collid
  overList l (fun t b =>
    resend e k t (modTx k t.f.seq.toNat (fun t => { t with held := none, retx := t.retx + 1 }) b)) b

/-- READY (R376). -/
def readyRow (e : Env) (f : Frame) (b : Body) : Bool × Body :=
  (true, overList (List.range 4) (fun tc => releaseFlow e (headOf f).count (flowKey f.src.toNat tc)) b)

/-- READY. -/
def execReady (s : State) : Host.Outcome State Fault Refusal := bodyStep (fun e b => serveInbox 8 (readyRow e) b) s

/-- STALE_RET (R376, R408): the returned piece lands at RET or LADDR, and the operation ends STALE. -/
def staleRetRow (e : Env) (f : Frame) (b : Body) : Bool × Body :=
  let h := headOf f
  match if h.orig = b.coord then b.findTag h.tag else none with
  | none => (true, b)
  | some (s, o) =>
    let a := if o.coll then
        o.elemAddr o.ret (axisOf f.src.toNat o.ax * o.seg b + (h.addr - rankOf b o.ax * o.seg b))
      else o.laddr + (h.addr - o.raddr)
    match sideWrite e (o.here s) a f.body b with
    | (.stall, b) => (false, b)
    | (.refused, b) => (true, endOp s o.tag cpRefused b)
    | (.ok _ st, b) => (true, statusOp (if st = cpCollide then st else cpStale) (s, o.tag) b)

/-- STALE_RET. -/
def execStaleRet (s : State) (clash : List Nat := []) : Host.Outcome State Fault Refusal := clashStep clash (fun e b => serveInbox 9 (staleRetRow e) b) s

-- Collective pieces (R376, R379, R387 to R390).

/-- The launched reduction that a frame matches; ranks whose OP differs match too (R379, R407). -/
def matchingColl (b : Body) (collid : Nat) (h : OpHdr) : Option (Nat × CpOp) := findColl b collid h (·.reduces)

/-- A lineup piece at a member (R389). -/
def takeLineup (e : Env) (s : Nat) (o : CpOp) (f : Frame) (b : Body) : Body :=
  let n := ofBytes (f.body.take 16)
  if o.when_ && !o.closed && o.status.isNone && !o.stale then
    closeWith e s o (bitsOf n 0 16) (bitsOf n 16 2) (bitsOf n 32 32) b
  else b

/-- A contribution at a matching reduction: checked and written (R378, R379). -/
def takePiece (e : Env) (s : Nat) (o : CpOp) (f : Frame) (b : Body) : Bool × Body :=
  let h := headOf f
  let n := f.body.length * 8 / fmtWidth o.dfmt
  if o.status.isSome || o.stale then (true, b)
  else if h.fmt != o.dfmt || o.nelem < h.addr + n then refuseStatus e f cpShape (endOp s o.tag cpShape b)
  else match collStore e s o h.addr f.body b with
    | (none, b) => (false, b)
    | (some st, b) =>
      if st != cpOk then (true, endOp s o.tag st b)
      else
        let b := b.modOp s o.tag fun x => { x with landed := x.landed ++ [(h.count / 2 ^ 12 % 16, f.body.length)] }
        (true, collProgress e s o.tag b)

/-- COLL_DATA: a piece, an arrival notice or a lineup piece (R376, R387 to R390, R409). -/
def serveColl (e : Env) (f : Frame) (b : Body) : Bool × Body :=
  let h := headOf f
  let collid := h.count % 2 ^ 12
  let special := h.addr == noticeAddr || h.addr == lineupAddr
  if genOf b h < 0 then (true, if special then b else refuseFrame e f 9 h.count f.body b)
  else if 0 < genOf b h then (true, notReady e f collid b)
  else if b.dev.tr.closedColl.contains (collid, h.step) then (true, if special then b else b.bumpSat (oTr 0x48) 32 32)
  else match matchingColl b collid h with
    | none => (true, notReady e f collid b)
    | some (s, o) =>
      if h.addr = noticeAddr then (true, arrive e s o.tag (h.count / 2 ^ 12 % 16) b)
      else if h.addr = lineupAddr then (true, takeLineup e s o f b)
      else takePiece e s o f b

/-- COLL_DATA. -/
def execCollData (s : State) (clash : List Nat := []) : Host.Outcome State Fault Refusal := clashStep clash (fun e b => serveInbox 6 (serveColl e) b) s

-- Atomic results (R337, R340, R364).

/-- The outcome of an answered atomic at its operations: false while a write waits. -/
def landAnswers (e : Env) (st old : Nat) : List (Nat × Nat) → Body → Bool × Body
  | [], b => (true, b)
  | p :: l, b =>
    match b.opOf p.1 p.2 with
    | none => landAnswers e st old l b
    | some o =>
      match atomLand e p.1 o st old b with
      | (false, b) => (false, b)
      | (true, b) => landAnswers e st old l b

/-- An ARESP at the requester. A result that cannot be written yet is not received; the request is sent again. -/
def takeAresp (e : Env) (k : Nat) (f : Frame) (b : Body) : Body :=
  let b := takeAck e k f b
  match (b.flow k).unacked.find? fun t => t.aresp && t.f.seq == f.seq with
  | none => b
  | some t =>
    let r := ofBytes (f.payload.take 16)
    match landAnswers e (bitsOf r 0 8) (bitsOf r 64 64) t.owners b with
    | (false, b) => b
    | (true, b) => settleFlow e k (modTx k f.seq.toNat (fun t => { t with aresp := false }) b)

/-- ARESP. -/
def execAresp (port : Nat) (f : Frame) (s : State) (clash : List Nat := []) : Host.Outcome State Fault Refusal :=
  clashStep clash (fun e b => if f.typ = 3 then receive e port f (takeAresp e) b else b) s

-- Flow reset and dead targets (R344, R375).

/-- Does an operation end because device `x` is dead (R375)? A reduction under a final whistle ends where `x` is a member and
the reduction has not closed (R394). -/
def diesWith (x : Nat) (b : Body) (o : CpOp) : Bool :=
  if o.status.isSome then false
  else if !o.coll then o.op != 4 && o.rdev == x && x != b.coord
  else
    let j := axisOf x o.ax
    let ring := x != b.coord && o.device b j == x && j < o.n b
    let lacks := fun (n have_ : Nat) => have_ < n
    ring &&
      (if o.op = 1 || (o.op = 3 && !o.gather) then
        (o.peers b).contains j && !o.closed && (o.when_ || lacks (packedBytes o.dfmt (o.seg b)) (o.landedFrom j))
      else (o.sources b).contains j && lacks (o.slotBytes b) (o.gotFrom j))

/-- A frame that had not been acknowledged by a reset device: sent on a new route where it was only passing, else its
operations wait for it no longer. -/
def rehome (e : Env) (x tc : Nat) (f : Frame) (owners : List (Nat × Nat)) (b : Body) : Body :=
  let h := headOf f
  let hasEntry := b.dev.fab.comb.any (entryOf h)
  if h.hop && h.final != x && !(f.opc == 2 && hasEntry) then sendData e (nextHop b h.final) tc false f.payload owners b
  else overList owners ownerDone b

/-- The flows with a device in one traffic class reset (R344). -/
def resetFlow (e : Env) (x tc : Nat) (b : Body) : Body :=
  let k := flowKey x tc
  let fl := b.flow k
  let b := b.modFlow k fun _ => Flow.initial
  let b := { b with dev.fab.deferred := b.dev.fab.deferred.filter (fun d => d.1 != k),
                    dev.fab.answering := b.dev.fab.answering.filter fun d => d.1 != k }
  overList (fl.unacked.map (fun t => (t.f, t.owners)) ++ fl.waiting.map (fun o => (o.f, o.owners))) (fun p => rehome e x tc p.1 p.2) b

/-- The combining table after a whistle for `x` (R375): entries for it end DEAD, those that had gone to it go again. -/
def deadEntries (e : Env) (x : Nat) (b : Body) : Body :=
  let l := b.dev.fab.comb
  let gone := fun (c : CombEntry) => (headOf c.open_).final == x
  let passed := fun (c : CombEntry) => !gone c && c.open_.opc == 2 && c.open_.dst.toNat == x
  let redirect := fun (c : CombEntry) =>
    { c with open_ := { c.open_ with dst := BitVec.ofNat 16 (nextHop b (headOf c.open_).final) } }
  let b := { b with dev.fab.comb := mapWhere (l.filter (!gone ·)) passed redirect }
  let b := overList (l.filter gone) (fun c b =>
    overList c.joined (fun g b => answerFrame e g 10 cpDead [] b)
      (overList c.locals (fun p b => endOp p.1 p.2 cpDead (ownerDone p b)) b)) b
  overList (l.filter passed) (fun c b =>
    sendData e (nextHop b (headOf c.open_).final) c.open_.tc.toNat false ({ headOf c.open_ with hop := true }.payload []) [] b) b

/-- Every flow with a device is reset, and what depended on it ends as R375 says. -/
def flowResetAll (e : Env) (x : Nat) (b : Body) : Body :=
  let from_ := fun (f : Frame) => f.src.toNat == x
  let b := { b with dev.fab.inbox := b.dev.fab.inbox.filter (!from_ ·),
                    dev.fab.atomQ := b.dev.fab.atomQ.filter fun j => !from_ j.f,
                    dev.fab.puts := b.dev.fab.puts.filter (·.1 != x),
                    dev.tr.answered := b.dev.tr.answered.filter fun a => a.1.toNat != x }
  let b := mapOps (diesWith x) (fun s o => endOp s o.tag cpDead) b
  let b := overList (List.range 4) (resetFlow e x) b
  deadEntries e x b

/-- FLOW_RESET (R344). -/
def execFlowReset (ag : Agent) (coord : BitVec 16) (s : State) : Host.Outcome State Fault Refusal :=
  bodyStep (fun e b => guarded e ag (oRtr 0x38) b (flowResetAll e coord.toNat b)) s

end Sys2Proof.Machine
end

