-- ==== Sys2Proof/Machine/SvOps.lean ====
section
/-! DEFINITION. Solver schedules and launches: images and their validation (R234 to R241), launch descriptors and their
checks (R244, R245, R247), the steps of every operation (R245, R255), and dual arithmetic (R126, R253, R256). -/
namespace Sys2Proof.Machine

-- Status codes of the sequencer (R261).
def svSched : Nat := 0x03
def svSpanFail : Nat := 0x04
def svCollide : Nat := 0x07
def svUe : Nat := 0x0B

-- Fields of a solver instruction (R243).

/-- FUNC. -/
def QEntry.svFunc (q : QEntry) : Nat := bitsOf q.word.toNat 22 4
/-- SLOT. -/
def QEntry.svSlot (q : QEntry) : Nat := bitsOf q.word.toNat 8 4
/-- CC. -/
def QEntry.svCc (q : QEntry) : Nat := bitsOf q.word.toNat 4 4

/-- Reserved or malformed encodings (R243). -/
def svEncodingOk (q : QEntry) : Bool :=
  let w := q.word.toNat
  bitsOf w 0 4 == 0 && bitsOf w 12 5 == 0 &&
  match q.svFunc with
  | 0 => q.svSlot == 0
  | 1 => true
  | 2 => bitsOf w 17 5 == 0
  | _ => false

/-- An image header (R236). -/
structure SvHdr where
  tag : Nat
  n : Nat
  t : Nat
  rank : Nat
  fkind : Nat
  dualok : Bool
  precok : Nat
  phash : Nat
  nloc : Nat
  mext : Nat
  fext : Nat
  wext : Nat
  len : Nat
  nrec : Nat
  rsv : Bool

/-- The fields of a header, `rsv` when a reserved one is not zero. -/
def SvHdr.ofNat (h : Nat) : SvHdr where
  tag := bitsOf h 0 32
  n := bitsOf h 32 24
  t := bitsOf h 64 16
  rank := bitsOf h 80 16
  fkind := bitsOf h 96 2
  dualok := bitOf h 99
  precok := bitsOf h 100 2
  phash := bitsOf h 128 64
  nloc := bitsOf h 192 24
  mext := bitsOf h 224 32
  fext := bitsOf h 256 32
  wext := bitsOf h 288 32
  len := bitsOf h 320 32
  nrec := bitsOf h 352 32
  rsv := bitsOf h 56 8 != 0 || bitsOf h 102 26 != 0 || bitsOf h 216 8 != 0 || bitsOf h 384 64 != 0

/-- Byte offset of the section table (R235). -/
def SvHdr.sectOff (h : SvHdr) : Nat := 64 + cdiv (2 * h.t) 64 * 64

/-- Byte offset of the records. -/
def SvHdr.recOff (h : SvHdr) : Nat := h.sectOff + 128

/-- Byte offset of the index lists. -/
def SvHdr.listOff (h : SvHdr) : Nat := h.recOff + cdiv (16 * h.nrec) 64 * 64

/-- Extent of an array (R238); none for a reserved code. -/
def SvHdr.extent (h : SvHdr) (code : Nat) : Option Nat :=
  match code with
  | 0 => some h.mext | 1 => some h.fext | 2 => some h.nloc | 3 => some h.nloc | 4 => some h.wext | _ => none

/-- Array code of a reference. -/
def refArray (r : Nat) : Nat := bitsOf r 29 3

/-- Element index of a reference. -/
def refIndex (r : Nat) : Nat := bitsOf r 0 29

/-- `n` consecutive references from `r` lie in their array. -/
def SvHdr.refsOk (h : SvHdr) (r n : Nat) : Bool :=
  match h.extent (refArray r) with
  | some x => refIndex r + n ≤ x
  | none => false

/-- The tile of rank r in an image at `a` (R235). -/
def svTile (m : Mem) (s a r : Nat) : Nat := m.num (siteBase s + a + 64 + 2 * r) 2

/-- FIRST and COUNT of a section (R237). -/
def svSection (m : Mem) (s a : Nat) (h : SvHdr) (k : Nat) (rev : Bool) : Nat × Nat :=
  let w := siteBase s + a + h.sectOff + 16 * k + 8 * b2n rev
  (m.num w 4, m.num (w + 4) 4)

/-- A record (R239). -/
structure SvRec where
  kind : Nat
  rsv : Nat
  cnt : Nat
  a : Nat
  b : Nat
  c : Nat

/-- Record `i` of an image. -/
def svRecord (m : Mem) (s a : Nat) (h : SvHdr) (i : Nat) : SvRec :=
  let w := m.num (siteBase s + a + h.recOff + 16 * i) 16
  { kind := bitsOf w 0 8, rsv := bitsOf w 8 8, cnt := bitsOf w 16 16, a := bitsOf w 32 32, b := bitsOf w 64 32, c := bitsOf w 96 32 }

/-- Reference `k` of the index list at offset `b` (R239). -/
def svListRef (m : Mem) (s a b k : Nat) : Nat := m.num (siteBase s + a + b + 4 * k) 4

/-- The entries of the index list that a record names. -/
def SvRec.listLen (r : SvRec) : Nat := match r.kind with | 4 => r.cnt | 5 => 2 * r.cnt | _ => 0

/-- A record that SV.LOAD accepts (R239, R241). -/
def svRecOk (m : Mem) (s a : Nat) (h : SvHdr) (r : SvRec) : Bool :=
  let one := fun x => h.refsOk x 1
  let list := r.b + 4 * r.listLen ≤ h.len && (List.range r.listLen).all fun k => one (svListRef m s a r.b k)
  r.rsv == 0 &&
  match r.kind with
  | 1 => r.c == 0 && h.refsOk r.a r.cnt && h.refsOk r.b r.cnt
  | 2 => r.b == 0 && r.c == 0 && h.refsOk r.a r.cnt
  | 3 => r.cnt == 0 && r.c == 0 && r.a < h.n && one r.b
  | 4 => r.a == 0 && list && one r.c
  | 5 => r.c ≤ 1 && one r.a && list
  | 6 => r.cnt == 0 && one r.a && one r.b && r.c < h.n
  | 7 => r.c < h.t && h.refsOk r.b r.cnt
  | 8 => r.cnt == 0 && r.b == 0 && r.c == 0
  | _ => false

/-- The image at `a` of a site that runs logical tile `tile` is valid (R235 to R241). -/
def svImageOk (m : Mem) (s a : Nat) (tile : Option Nat) : Bool :=
  let h := SvHdr.ofNat (descAt m s a)
  let tiles := (List.range h.t).map (svTile m s a)
  let sect := fun k rev =>
    let (f, c) := svSection m s a h k rev
    f + c ≤ h.nrec && (!((k == 0 && rev) || 5 ≤ k) || c == 0)
  let zero := fun x n => (List.range n).all fun i => m.get (siteBase s + a + x + i) == 0#8
  h.tag == 0x5356_0001 && 1 ≤ h.n && 1 ≤ h.t && h.t ≤ 384 && !h.rsv && h.rank < h.t &&
  h.len % 64 == 0 && h.listOff ≤ h.len && wordSum (m.slice (siteBase s + a) h.len) == 0 &&
  tile == some (tiles.getD h.rank 384) && tiles.all (· < 384) && tiles.length == tiles.eraseDups.length &&
  zero (64 + 2 * h.t) (h.sectOff - 64 - 2 * h.t) && zero (h.recOff + 16 * h.nrec) (h.listOff - h.recOff - 16 * h.nrec) &&
  (List.range 8).all (fun k => sect k false && sect k true) &&
  (List.range h.nrec).all fun i => svRecOk m s a h (svRecord m s a h i)

/-- The solver-launch descriptor (R244). -/
structure SvDesc where
  fmt : Nat
  dual : Bool
  mdual : Bool
  bdual : Bool
  dir : Bool
  op : Nat
  prec : Nat
  xz : Bool
  koen : Bool
  slot : Nat
  dcc : Nat
  dcen : Bool
  ren : Bool
  kickoff : Nat
  phash : Nat
  maddr : Nat
  faddr : Nat
  baddr : Nat
  xaddr : Nat
  waddr : Nat
  toff : Nat
  iters : Nat
  mg : Nat
  raddr : Nat
  rsv : Bool

/-- The fields of a 512-bit descriptor; `rsv` when a reserved bit, GEN or STEP is not zero. -/
def SvDesc.ofNat (d : Nat) : SvDesc where
  fmt := bitsOf d 0 4
  dual := bitOf d 4
  mdual := bitOf d 5
  bdual := bitOf d 6
  dir := bitOf d 7
  op := bitsOf d 8 4
  prec := bitsOf d 12 2
  xz := bitOf d 14
  koen := bitOf d 15
  slot := bitsOf d 16 4
  dcc := bitsOf d 20 4
  dcen := bitOf d 24
  ren := bitOf d 25
  kickoff := bitsOf d 32 32
  phash := bitsOf d 128 32
  maddr := bitsOf d 160 21
  faddr := bitsOf d 192 21
  baddr := bitsOf d 224 21
  xaddr := bitsOf d 256 21
  waddr := bitsOf d 288 21
  toff := bitsOf d 320 21
  iters := bitsOf d 352 16
  mg := bitsOf d 368 6
  raddr := bitsOf d 384 21
  rsv := bitsOf d 26 6 != 0 || bitsOf d 181 11 != 0 || bitsOf d 213 11 != 0 || bitsOf d 245 11 != 0 ||
    bitsOf d 277 11 != 0 || bitsOf d 309 11 != 0 || bitsOf d 341 11 != 0 || bitsOf d 374 10 != 0 || bitsOf d 405 107 != 0

/-- An iterative operation (R245). -/
def SvDesc.iterative (d : SvDesc) : Bool := 6 ≤ d.op

/-- Bytes of an element (R238). -/
def SvDesc.w (d : SvDesc) : Nat := if d.fmt = 0 then 8 else 4

/-- Work vectors of an operation (R245). -/
def SvDesc.works (d : SvDesc) : Nat := match d.op with | 6 => 4 | 7 => 8 | 8 => 2 * d.mg + 3 | _ => 0

/-- The triangular sections in the order of a direction (R245). -/
def SvDesc.solveSects (d : SvDesc) : List Nat := if d.dir then [2, 1] else [1, 2]

/-- The sections of the preconditioner (R245). -/
def SvDesc.precSects (d : SvDesc) : List Nat := match d.prec with | 1 => [4] | 2 => d.solveSects | _ => []

/-- The sections that a direct operation runs, in order, or an iterative one needs (R245). -/
def SvDesc.sects (d : SvDesc) : List Nat :=
  match d.op with
  | 0 => [0]
  | 1 => d.solveSects
  | 2 => [0, 1, 2]
  | 3 => [1]
  | 4 => [2]
  | 5 => [3]
  | _ => 3 :: d.precSects

/-- Does the operation bind VIN and VOUT, so that their extents lie anywhere (R238, R245)? FACTOR alone does not. -/
def SvDesc.binds (d : SvDesc) : Bool := d.op != 0

/-- The base addresses of a descriptor (R244). -/
def SvDesc.bases (d : SvDesc) : List Nat := [d.maddr, d.faddr, d.baddr, d.xaddr, d.waddr]

/-- The bytes of `n` elements at `a`, with those of their tangents where they carry one. -/
def SvDesc.array (d : SvDesc) (a n : Nat) (tan : Bool) : List Range :=
  (a, n * d.w) :: if d.dual && tan then [(a + d.toff, n * d.w)] else []

/-- The extents of R238, the workspace and the tangent regions, whatever the operation makes of them (R247). -/
def svRanges (d : SvDesc) (h : SvHdr) : List Range :=
  d.array d.maddr h.mext d.mdual ++ d.array d.faddr h.fext true ++
  (if d.binds then d.array d.baddr h.nloc d.bdual ++ d.array d.xaddr h.nloc true else []) ++
  d.array d.waddr (h.wext + d.works * h.nloc) true

/-- The arrays that an operation writes (R245): F, X, and the workspace. -/
def svWrites (d : SvDesc) (h : SvHdr) : List Range :=
  (if d.op = 0 || d.op = 2 then d.array d.faddr h.fext true else []) ++ (if d.binds then d.array d.xaddr h.nloc true else []) ++
  d.array d.waddr (h.wext + d.works * h.nloc) true

/-- The result record of a launching tile (R247, R252). -/
def svRecordRange (d : SvDesc) (launcher : Bool) : List Range := if launcher && d.ren then [(d.raddr, 32)] else []

/-- The section table of the image in a slot (R235). -/
def svTable (k : SvSlot) : Range := (k.base + (SvHdr.ofNat k.hdr).sectOff, 128)

/-- The checks of a launch against a tile's own slot (R247, R512), `m` being the memory as the sequencer reads it;
`launcher` adds the result record. -/
def svLaunchStatus (t : Site) (m : Mem) (s : Nat) (slot : Option SvSlot) (d : SvDesc) (launcher : Bool) : Nat :=
  match slot with
  | none => svSched
  | some k =>
    let h := SvHdr.ofNat k.hdr
    if !t.ownsAll 4 [(k.base, h.len)] then mxBank
    else if d.phash != h.phash % 2 ^ 32 || d.rsv || 9 ≤ d.op || d.prec == 3 || (d.dir && (d.op == 0 || d.op == 2)) ||
        d.sects.any (fun c => (svSection m s k.base h c d.dir).2 == 0) then svSched
    else if 2 ≤ d.fmt || !bitOf h.precok d.fmt || (d.dual && !h.dualok) then mxFormat
    else if (d.iterative != (d.iters != 0)) || (if d.op = 8 then !(1 ≤ d.mg && d.mg ≤ 32) else d.mg != 0) ||
        d.bases.any (fun a => a % d.w != 0) || d.raddr % 8 != 0 then mxShape
    else if !t.ownsAll 4 (svRanges d h ++ svRecordRange d launcher) then mxBank
    else mxOk

-- The steps of an operation (R245, R255).

/-- A step of a part. Vectors: 0 is B, 1 is X, 2 + k work vector k. Scalars are numbered by `svScal`. -/
inductive SvOp where
  | sect (k vin vout : Nat)
  | zeroV (v : Nat)
  | copyV (dst src : Nat)
  | subV (dst a b : Nat)
  | fmaV (neg : Bool) (dst sc a c : Nat)
  | divV (dst a sc : Nat)
  | dot (sc u v : Nat)
  | constS (sc : Nat) (one : Bool)
  | copyS (dst a : Nat)
  | mulS (dst a b : Nat)
  | fmaS (neg : Bool) (dst a b c : Nat)
  | divS (dst a b : Nat)
  | sqrtS (dst a : Nat)
  | rotForm (j a b : Nat)
  | rot (j x y : Nat)
  deriving DecidableEq, Repr

-- Scalar names of R255.
def svRho : Nat := 0
def svAlpha : Nat := 1
def svBeta : Nat := 2
def svOmega : Nat := 3
def svRn : Nat := 4
def svT1 : Nat := 5
def svT2 : Nat := 6
def svRes : Nat := 7
def svG (i : Nat) : Nat := 100 + i
def svY (i : Nat) : Nat := 200 + i
def svC (i : Nat) : Nat := 300 + i
def svS (i : Nat) : Nat := 400 + i
def svH (i j : Nat) : Nat := 1000 + 64 * i + j

/-- The sections of a chain: the first binds VIN to `v`, the later ones to the output (R245). -/
def svChain (l : List Nat) (v z : Nat) : List SvOp := l.zipIdx.map fun (k, i) => .sect k (if i = 0 then v else z) z

/-- z = prec(v) (R255). -/
def svPrec (d : SvDesc) (v z : Nat) : List SvOp := if d.prec = 0 then [.copyV z v] else svChain d.precSects v z

/-- r = b − A·x (R255). -/
def svResidual (r : Nat) : List SvOp := [.sect 3 1 r, .subV r 0 r]

/-- x = 0, where XZ is set. -/
def svStart (d : SvDesc) : List SvOp := if d.xz then [.zeroV 1] else []

/-- An operation as steps before the iterations, the steps of one iteration with their place within it, and the steps
after the last (R245, R255). -/
structure SvScript where
  pre : List SvOp
  body : List (SvOp × Nat)
  per : Nat
  post : List SvOp

/-- Steps of one place within an iteration. -/
def svAt (j : Nat) (l : List SvOp) : List (SvOp × Nat) := l.map (·, j)

/-- cg (R255). -/
def svCg (d : SvDesc) : SvScript :=
  let r := 2; let z := 3; let p := 4; let q := 5
  { pre := svStart d ++ svResidual r ++ svPrec d r z ++ [.copyV p z, .dot svRho r z]
    body := svAt 1 ([.sect 3 p q, .dot svT1 p q, .divS svAlpha svRho svT1, .fmaV false 1 svAlpha p 1, .fmaV true r svAlpha q r] ++
      svPrec d r z ++ [.dot svRn r z, .divS svBeta svRn svRho, .fmaV false p svBeta p z, .copyS svRho svRn])
    per := 1
    post := [.dot svRes r r] }

/-- bicgstab (R255). -/
def svBicg (d : SvDesc) : SvScript :=
  let r := 2; let rh := 3; let v := 4; let p := 5; let ph := 6; let s := 7; let sh := 8; let t := 9
  { pre := svStart d ++ svResidual r ++ [.copyV rh r, .constS svRho true, .constS svAlpha true, .constS svOmega true,
      .zeroV v, .zeroV p]
    body := svAt 1 ([.dot svRn rh r, .divS svT1 svRn svRho, .divS svT2 svAlpha svOmega, .mulS svBeta svT1 svT2,
      .fmaV true p svOmega v p, .fmaV false p svBeta p r] ++ svPrec d p ph ++
      [.sect 3 ph v, .dot svT1 rh v, .divS svAlpha svRn svT1, .fmaV true s svAlpha v r] ++ svPrec d s sh ++
      [.sect 3 sh t, .dot svT1 t s, .dot svT2 t t, .divS svOmega svT1 svT2, .fmaV false 1 svAlpha ph 1,
       .fmaV false 1 svOmega sh 1, .fmaV true r svOmega t s, .copyS svRho svRn])
    per := 1
    post := [.dot svRes r r] }

/-- gmres (R255): v[i] is work vector i, z[j] follows them, then r and w. -/
def svGmres (d : SvDesc) : SvScript :=
  let m := d.mg
  let v := fun i => 2 + i
  let z := fun j => 3 + m + j
  let r := 3 + 2 * m
  let w := 4 + 2 * m
  { pre := svStart d
    body := svAt 1 (svResidual r ++ [.dot svT1 r r, .sqrtS (svG 0) svT1] ++ (List.range m).map (fun i => .constS (svG (i + 1)) false) ++
        [.divV (v 0) r (svG 0)]) ++
      (List.range m).flatMap (fun j => svAt (j + 1) (svPrec d (v j) (z j) ++ [.sect 3 (z j) w] ++
        (List.range (j + 1)).flatMap (fun i => [.dot (svH i j) w (v i), .fmaV true w (svH i j) (v i) w]) ++
        [.dot svT1 w w, .sqrtS (svH (j + 1) j) svT1, .divV (v (j + 1)) w (svH (j + 1) j)] ++
        (List.range j).map (fun i => .rot i (svH i j) (svH (i + 1) j)) ++
        [.rotForm j (svH j j) (svH (j + 1) j), .rot j (svH j j) (svH (j + 1) j), .rot j (svG j) (svG (j + 1))])) ++
      (List.range m).reverse.flatMap (fun j => svAt (j + 1) ([.copyS (svY j) (svG j)] ++
        ((List.range m).reverse.filter (j < ·)).map (fun i => .fmaS true (svY j) (svH j i) (svY i) (svY j)) ++
        [.divS (svY j) (svY j) (svH j j)])) ++
      (List.range m).flatMap (fun j => svAt (j + 1) [.fmaV false 1 (svY j) (z j) 1])
    per := m
    post := [.mulS svRes (svG m) (svG m)] }

/-- The steps of a launch (R245, R255). -/
def svScript (d : SvDesc) : SvScript :=
  match d.op with
  | 6 => svCg d
  | 7 => svBicg d
  | 8 => svGmres d
  | 2 => { pre := [.sect 0 0 1] ++ svChain [1, 2] 0 1, body := [], per := 0, post := [] }
  | _ => { pre := svChain d.sects 0 1, body := [], per := 0, post := [] }

/-- Steps of the whole operation. -/
def svLength (d : SvDesc) : Nat :=
  let k := svScript d
  k.pre.length + d.iters * k.body.length + k.post.length

/-- The step at a position, with ITER of R269: 0 outside an iteration. -/
def svStepAt (d : SvDesc) (pos : Nat) : Option (SvOp × Nat) :=
  let k := svScript d
  let n := k.body.length
  if pos < k.pre.length then (k.pre[pos]?).map (·, 0)
  else if pos < k.pre.length + d.iters * n then
    let p := pos - k.pre.length
    (k.body[p % n]?).map fun (o, j) => (o, p / n * k.per + j)
  else (k.post[pos - k.pre.length - d.iters * n]?).map (·, 0)

-- Arithmetic on values with tangents (R126, R253, R256); `c` is the format, a run that is not dual keeps tangents zero.

/-- The opposite of a value and its tangent. -/
def Scal.neg (c : Nat) (a : Scal) : Scal := { v := fpNeg c a.v, t := fpNeg c a.t }

/-- a + b. -/
def Scal.add (c : Nat) (dual : Bool) (a b : Scal) : Scal × FFlags :=
  let (v, f) := fpAdd c a.v b.v .rne
  let (t, g) := if dual then fpAdd c a.t b.t .rne else (0, 0)
  ({ v := v, t := t }, f ||| g)

/-- a × b. -/
def Scal.mul (c : Nat) (dual : Bool) (a b : Scal) : Scal × FFlags :=
  let (v, f) := fpMul c a.v b.v .rne
  let (p, g) := fpMul c a.t b.v .rne
  let (t, h) := fpFma c a.v b.t p .rne
  if dual then ({ v := v, t := t }, f ||| g ||| h) else ({ v := v, t := 0 }, f)

/-- fma(a, b, d). -/
def Scal.fma (c : Nat) (dual : Bool) (a b d : Scal) : Scal × FFlags :=
  let (v, f) := fpFma c a.v b.v d.v .rne
  let (p, g) := fpFma c a.t b.v d.t .rne
  let (t, h) := fpFma c a.v b.t p .rne
  if dual then ({ v := v, t := t }, f ||| g ||| h) else ({ v := v, t := 0 }, f)

/-- a / b, the divisor's value already examined and replaced by `bv` (R258). -/
def Scal.div (c : Nat) (dual : Bool) (a b : Scal) (bv : Nat) : Scal × FFlags :=
  let (y, f) := fpDiv c a.v bv .rne
  let (n, g) := fpFma c (fpNeg c y) b.t a.t .rne
  let (t, h) := fpDiv c n bv .rne
  if dual then ({ v := y, t := t }, f ||| g ||| h) else ({ v := y, t := 0 }, f)

/-- KIND of the event that a divisor raises; 0 for a good one (R258, R269). -/
def divisorKind (c a : Nat) : Nat :=
  let (x, _) := readElem c a
  if x.isNan then 3 else if x.isInf then 2 else if x.isZero then 1 else 0

/-- A non-finite event in the layout of SV_NFINFO (R269). -/
def nfWord (kind iter pos : Nat) : Word64 :=
  BitVec.ofNat 64 (2 ^ 63 + kind % 8 * 2 ^ 56 + iter % 2 ^ 16 * 2 ^ 32 + pos % 2 ^ 24)

/-- The balanced pairwise tree over 2^d values (R84, R254). -/
def treeScal (c : Nat) (dual : Bool) : Nat → List Scal → Scal × FFlags
  | 0, l => (l.headD { v := 0, t := 0 }, 0)
  | d + 1, l =>
    let rec pairs : List Scal → List Scal × FFlags
      | a :: b :: r =>
        let (v, f) := Scal.add c dual a b
        let (vs, g) := pairs r
        (v :: vs, f ||| g)
      | l => (l, 0)
    let (vs, f) := pairs l
    let (v, g) := treeScal c dual d vs
    (v, f ||| g)

/-- The span combine of the tiles' partials in rank order (R254). -/
def spanSum (c : Nat) (dual : Bool) (l : List Scal) : Scal × FFlags :=
  let d := Nat.log2 (2 * l.length - 1)
  treeScal c dual d (l ++ List.replicate (2 ^ d - l.length) { v := 0, t := 0 })

end Sys2Proof.Machine
end

