-- ==== Sys2Proof/Machine/SvRun.lean ====
section
/-! DEFINITION. How a part of a solver run executes: elements, records, pieces, method steps, waiting (R238, R239, R248,
R249, R253 to R259). -/
namespace Sys2Proof.Machine

/-- The sequencer of a site changed. -/
def Body.modSv (b : Body) (s : Nat) (f : SvSt → SvSt) : Body := b.modSite s fun t => { t with sv := f t.sv }

/-- The part of a site changed. -/
def Body.modPart (b : Body) (s : Nat) (f : SvPart → SvPart) : Body := b.modSv s fun x => { x with part := x.part.map f }

/-- The part of a site. -/
def Body.part (b : Body) (s : Nat) : Option SvPart := (b.site s).sv.part

/-- What a part's execution does not change. -/
structure SvCtx where
  e : Env
  s : Nat
  d : SvDesc
  h : SvHdr
  base : Nat
  tiles : List Nat
  run : RunId

/-- The descriptor of a launch. -/
def SvLaunch.d (l : SvLaunch) : SvDesc := SvDesc.ofNat l.desc

/-- The run that a part belongs to. -/
def SvPart.run (p : SvPart) : RunId := p.launch.run

/-- The descriptor of a part. -/
def SvPart.d (p : SvPart) : SvDesc := p.launch.d

/-- The slot of a site. -/
def Body.svImage (b : Body) (s slot : Nat) : Option SvSlot := (b.site s).sv.slots.get none slot

/-- The context of a part on a site: its descriptor and the slot it names. -/
def svCtx (e : Env) (s : Nat) (p : SvPart) (b : Body) : SvCtx :=
  let k := (b.svImage s p.d.slot).getD { base := 0, hdr := 0 }
  { e := e, s := s, d := p.d, h := SvHdr.ofNat k.hdr, base := k.base, tiles := p.launch.tiles, run := p.run }

/-- Execution in progress: the body, the SRAM words that reads see as uncorrectable (R227), and whether it waits for a bank
that wakes (R225). -/
structure SvRun where
  b : Body
  bad : List Nat
  stall : Bool := false

/-- SRAM as reads of the sequencer see it. -/
def SvRun.view (r : SvRun) (s : Nat) : Mem :=
  r.bad.foldl (fun m a => m.write (siteBase s + a) (List.replicate 8 0xFF#8)) r.b.mem

/-- The sequencer changed. -/
def SvRun.mod (r : SvRun) (s : Nat) (f : SvSt → SvSt) : SvRun := { r with b := r.b.modSv s f }

/-- The part changed. -/
def SvRun.modPart (r : SvRun) (s : Nat) (f : SvPart → SvPart) : SvRun := { r with b := r.b.modPart s f }

/-- The part ends with a status; the first end counts. -/
def SvPart.finish (p : SvPart) (st : Nat) : SvPart :=
  if p.ended.isSome then p else { p with ended := some st, waiting := false }

/-- Flags collected (R253, R267). -/
def SvRun.flag (r : SvRun) (s : Nat) (f : FFlags) : SvRun := r.mod s fun x => { x with flags := x.flags ||| f }

/-- A result with its flags collected. -/
def SvRun.take (r : SvRun) (s : Nat) (x : Scal × FFlags) : Scal × SvRun := (x.1, r.flag s x.2)

/-- A non-finite event: NONFINITE, the part's first event, and SV_NFINFO where none is held (R258, R259, R269). -/
def SvRun.event (c : SvCtx) (kind iter pos : Nat) (r : SvRun) : SvRun :=
  let w := nfWord kind iter pos
  let takes := !bitOf (r.b.site c.s).sv.nfinfo.toNat 63
  (r.modPart c.s fun p => { p with nonfinite := true, nf := if p.nf = 0 then w else p.nf, nfMine := p.nfMine || takes }).mod c.s
    fun x => { x with nonfinite := true, nfinfo := if takes then w else x.nfinfo }

/-- The divisor examined: a bad one is replaced by the canonical NaN (R258). -/
def SvRun.exam (c : SvCtx) (iter pos a : Nat) (r : SvRun) : Nat × SvRun :=
  match divisorKind c.d.fmt a with
  | 0 => (a, r)
  | k => (canonNan c.d.fmt, (r.event c k iter pos).flag c.s ((readElem c.d.fmt a).2 ||| if k = 3 then fNanIn else fInvalid))

/-- A division of a run (R256, R258). -/
def SvRun.div (c : SvCtx) (iter pos : Nat) (a b : Scal) (r : SvRun) : Scal × SvRun :=
  let (bv, r) := r.exam c iter pos b.v
  r.take c.s (Scal.div c.d.fmt c.d.dual a b bv)

/-- A square root of a run; the division in its tangent is examined too (R126, R256, R258). -/
def SvRun.sqrt (c : SvCtx) (iter pos : Nat) (a : Scal) (r : SvRun) : Scal × SvRun :=
  let (y, f) := fpSqrt c.d.fmt a.v .rne
  let r := r.flag c.s f
  if c.d.dual then
    let (y2, g) := fpAdd c.d.fmt y y .rne
    let (bv, r) := (r.flag c.s g).exam c iter pos y2
    let (t, h) := fpDiv c.d.fmt a.t bv .rne
    ({ v := y, t := t }, r.flag c.s h)
  else ({ v := y, t := 0 }, r)

-- Arrays (R238, R245).

/-- An array as a run binds it: its base, whether it carries a tangent, and whether it is X or F. -/
structure SvArr where
  base : Nat
  tan : Bool
  xf : Bool

/-- A vector: B, X, or a work vector. -/
def SvCtx.vec (c : SvCtx) (v : Nat) : SvArr :=
  match v with
  | 0 => { base := c.d.baddr, tan := c.d.dual && c.d.bdual, xf := c.d.baddr == c.d.xaddr }
  | 1 => { base := c.d.xaddr, tan := c.d.dual, xf := true }
  | k + 2 => { base := c.d.waddr + (c.h.wext + k * c.h.nloc) * c.d.w, tan := c.d.dual, xf := false }

/-- The array that a code of R238 names in a section bound to `vin` and `vout`. -/
def SvCtx.arr (c : SvCtx) (vin vout code : Nat) : SvArr :=
  match code with
  | 0 => { base := c.d.maddr, tan := c.d.dual && c.d.mdual, xf := false }
  | 1 => { base := c.d.faddr, tan := c.d.dual, xf := true }
  | 2 => c.vec vin
  | 3 => c.vec vout
  | _ => { base := c.d.waddr, tan := c.d.dual, xf := false }

/-- The bytes of `n` elements of an array from index `i`. -/
def SvCtx.ranges (c : SvCtx) (a : SvArr) (i n : Nat) : List Range :=
  [(a.base + i * c.d.w, n * c.d.w)] ++ if a.tan then [(a.base + c.d.toff + i * c.d.w, n * c.d.w)] else []

/-- An element with its tangent; +0 where none is carried (R244, R256). -/
def SvRun.get (c : SvCtx) (a : SvArr) (i : Nat) (r : SvRun) : Scal :=
  let m := r.view c.s
  let x := siteBase c.s + a.base + i * c.d.w
  { v := m.num x c.d.w, t := if a.tan then m.num (x + c.d.toff) c.d.w else 0 }

/-- Bytes written in the site's SRAM; in a word that loses a collision they stay, and the part will end COLLIDE (R224). -/
def SvRun.write (c : SvCtx) (a n v : Nat) (r : SvRun) : SvRun :=
  let (hit, b) := unitWrite c.e 4 c.s (a, n) (r.b.mem.setNum (siteBase c.s + a) n v) r.b
  { r with b := if hit then b.modPart c.s fun p => { p with hit := true } else b
           bad := r.bad.filter fun w => w + 8 ≤ a || a + n ≤ w }

/-- An element written; a non-finite one in X or F is an event (R258). -/
def SvRun.put (c : SvCtx) (a : SvArr) (i iter : Nat) (x : Scal) (r : SvRun) : SvRun :=
  let r := r.write c (a.base + i * c.d.w) c.d.w x.v
  let r := if a.tan then r.write c (a.base + c.d.toff + i * c.d.w) c.d.w x.t else r
  let y := decFloat c.d.fmt x.v
  if a.xf && (y.isNan || y.isInf) then r.event c 4 iter i else r

-- Pieces (R249, R254).

/-- Bytes of a piece. -/
def SvPiece.size (p : SvPiece) : Nat := match p.body with | .send _ d t => d.length + t.length | .partial_ _ _ => 16

/-- Bytes held at a site's mesh port. -/
def SvSt.heldBytes (x : SvSt) : Nat := (x.held.map SvPiece.size).sum

/-- The logical tile of a site, as solver traffic names it. -/
def Body.svSelf (b : Body) (s : Nat) : Nat := (b.tileOf s).getD 384

/-- Fail notices from a site to every other rank of a run (R251). -/
def svNotify (s : Nat) (l : SvLaunch) (b : Body) : Body :=
  let me := b.svSelf s
  { b with dev.flight.fails := b.dev.flight.fails ++ (l.tiles.filter (· != me)).map fun t => (t, l.run, me) }

/-- The sender's part completes with BANK_OWN because its piece was refused (R249), also where its script has ended well
meanwhile; where its end has gone out already, the fail notices follow. A part that is gone is not called back (log
entry 70). -/
def refusePiece (p : SvPiece) (b : Body) : Body :=
  let s := b.siteOf p.src
  match b.part s with
  | none => b
  | some q =>
    if q.run != p.run || !(q.ended.isNone || q.ended == some mxOk || q.ended == some svCollide) then b
    else
      let b := b.modPart s fun q => { q with ended := some mxBank, waiting := false }
      if q.closed && q.ended == some mxOk then svNotify s q.launch b else b

/-- The bytes of RECV that a piece for a part writes. -/
def SvPiece.recvRanges (d : SvDesc) (p : SvPiece) : List Range :=
  match p.body with
  | .partial_ _ _ => []
  | .send i data tan => let a := d.waddr + i * d.w; [(a, data.length)] ++ if d.dual then [(a + d.toff, tan.length)] else []

/-- A piece for the execution that a site runs: written into RECV through the mesh remote port and counted, or the
sender's part ends (R249, R216); a partial is kept for its span combine (R254). -/
def deliverPiece (s : Nat) (p : SvPiece) (b : Body) : Body :=
  match b.part s with
  | none => b
  | some q =>
    let d := q.d
    match p.body with
    | .partial_ rank x => b.modPart s fun q => { q with partials := q.partials ++ [(p.ord, rank, x)] }
    | .send i data tan =>
      let a := d.waddr + i * d.w
      if (b.site s).servesAll 6 (p.recvRanges d) then
        let m := b.mem.write (siteBase s + a) data
        let m := if d.dual then m.write (siteBase s + a + d.toff) tan else m
        { b with mem := m }.modPart s fun q => { q with got := q.got + 1 }
      else refusePiece p b

/-- Has a site's part begun what a piece is for? A partial needs the part started, a SEND its section execution. -/
def pieceFits (x : SvSt) (p : SvPiece) : Bool :=
  match x.part with
  | none => false
  | some q => q.run == p.run && q.started && q.ended.isNone &&
      match p.body with
      | .partial_ _ _ => true
      | .send _ _ _ => q.inSect && q.ord == p.ord

/-- Is what a piece is for over, or gone: its run is neither running here nor still to come (R249)? -/
def pieceOver (b : Body) (s : Nat) (p : SvPiece) : Bool :=
  let x := (b.site s).sv
  let queued := x.q.any fun
    | .forwarded l => l.run == p.run
    | .issued _ => false
  let coming := queued || b.dev.flight.launches.any fun l => some l.1 == b.tileOf s && l.2.run == p.run
  match x.part with
  | some q =>
    if q.run == p.run then
      q.ended.isSome || (q.started && match p.body with
        | .partial_ _ _ => false
        | .send _ _ _ => p.ord < q.ord || (p.ord == q.ord && !q.inSect))
    else !coming
  | none => !coming

/-- Does a piece that fits wait for a bank of RECV that wakes (R225)? -/
def pieceWaits (t : Site) (p : SvPiece) : Bool :=
  match t.sv.part with
  | some q => t.wakingAny (p.recvRanges q.d) && t.servesAll 6 (p.recvRanges q.d)
  | none => false

/-- May a piece be written now? -/
def pieceGoes (t : Site) (p : SvPiece) : Bool := pieceFits t.sv p && !pieceWaits t p

/-- Held pieces that can be written are, in arrival order (R249). -/
def releasePieces (s : Nat) (b : Body) : Body :=
  let t := b.site s
  overList (t.sv.held.filter (pieceGoes t)) (deliverPiece s) (b.modSv s fun x => { x with held := x.held.filter fun p => !pieceGoes t p })

/-- Pieces put on the mesh. -/
def Body.sendPieces (b : Body) (l : List SvPiece) : Body := { b with dev.flight.pieces := b.dev.flight.pieces ++ l }

-- Records (R239).

/-- The bytes that a record touches. -/
def recRanges (c : SvCtx) (m : Mem) (vin vout i : Nat) (k : SvRec) : List Range :=
  let el := fun r n => c.ranges (c.arr vin vout (refArray r)) (refIndex r) n
  let list := (c.base + k.b, 4 * k.listLen) :: (List.range k.listLen).flatMap fun n => el (svListRef m c.s c.base k.b n) 1
  (c.base + c.h.recOff + 16 * i, 16) ::
  match k.kind with
  | 1 => el k.a k.cnt ++ el k.b k.cnt
  | 2 => el k.a k.cnt
  | 3 => el k.b 1
  | 4 => list ++ el k.c 1
  | 5 => el k.a 1 ++ list
  | 6 => el k.a 1 ++ el k.b 1
  | 7 => el k.b k.cnt
  | _ => []

/-- An element copied: a NaN becomes the canonical one and a subnormal zero, as wherever a unit writes one (R45, R52,
R253). -/
def Scal.pass (c : Nat) (dual : Bool) (x : Scal) : Scal × FFlags :=
  let (v, f) := passElem c x.v
  let (t, g) := passElem c x.t
  if dual then ({ v := v, t := t }, f ||| g) else ({ v := v, t := 0 }, f)

/-- A record other than WAIT executes (R239, R253, R256, R258); one of a KIND that no image holds has no effect (log
entry 70). -/
def recExec (c : SvCtx) (vin vout iter : Nat) (k : SvRec) (r : SvRun) : SvRun :=
  let f := c.d.fmt
  let arr := fun x => c.arr vin vout (refArray x)
  let get := fun (x n : Nat) (r : SvRun) => r.get c (arr x) (refIndex x + n)
  let put := fun (x n : Nat) (v : Scal) (r : SvRun) => r.put c (arr x) (refIndex x + n) iter v
  let item := fun (n : Nat) (r : SvRun) => svListRef (r.view c.s) c.s c.base k.b n
  match k.kind with
  | 1 =>
    let vs := (List.range k.cnt).map fun n => get k.b n r
    vs.zipIdx.foldl (fun r (v, n) => let (v, r) := r.take c.s (v.pass f c.d.dual); put k.a n v r) r
  | 2 => foldN k.cnt (fun n r => put k.a n { v := 0, t := 0 } r) r
  | 3 =>
    let x := get k.b 0 r
    let (x, r) := if c.h.fkind = 1 then r.sqrt c iter k.a x else (x, r)
    let (v, r) := r.exam c iter k.a x.v
    let (t, g) := if c.d.dual then passElem f x.t else (0, 0)
    put k.b 0 { v := v, t := t } (r.flag c.s g)
  | 4 =>
    let p := get k.c 0 r
    foldN k.cnt (fun n r =>
      let x := item n r
      let (v, r) := r.div c iter 0 (get x 0 r) p
      put x 0 v r) r
  | 5 =>
    let (t, r) := foldN k.cnt (fun n (t, r) =>
      let p := get (item (2 * n) r) 0 r
      let q := get (item (2 * n + 1) r) 0 r
      SvRun.take r c.s (Scal.fma f c.d.dual (if k.c % 2 = 1 then p else p.neg f) q t)) (get k.a 0 r, r)
    put k.a 0 t r
  | 6 =>
    let (v, r) := r.div c iter k.c (get k.a 0 r) (get k.b 0 r)
    put k.a 0 v r
  | 7 =>
    let vs := (List.range k.cnt).map fun n => get k.b n r
    let ord := match r.b.part c.s with | some p => p.ord | none => 0
    let tan := if c.d.dual then vs.flatMap fun v => leBytes v.t c.d.w else []
    let piece : SvPiece :=
      { src := r.b.svSelf c.s, dst := c.tiles.getD (k.c % 2 ^ 16) 384, run := c.run, ord := ord,
        body := .send k.a (vs.flatMap fun v => leBytes v.v c.d.w) tan }
    { r with b := r.b.sendPieces [piece] }
  | _ => r

/-- Records go on where banks may be used: a part whose bank was handed away ends (R261), one whose bank wakes waits (R225). -/
def SvRun.guard (c : SvCtx) (rs : List Range) (f : SvRun → SvRun) (r : SvRun) : SvRun :=
  let t := r.b.site c.s
  if !t.ownsAll 4 rs then r.modPart c.s fun p => p.finish mxBank
  else if t.wakingAny rs then { r with stall := true } else f r

/-- The records of a section execution from the part's next one, until a WAIT that must wait, the end, or a stop (R239,
R248, R261); the first argument bounds how many there are. Their contents are not checked again (R242). -/
def svRecords (c : SvCtx) (first count vin vout iter : Nat) : Nat → SvRun → SvRun
  | 0, r => r
  | n + 1, r =>
    match r.b.part c.s with
    | none => r
    | some p =>
      if p.ended.isSome || count ≤ p.recNo then r
      else
        let i := first + p.recNo
        let next := fun (r : SvRun) => svRecords c first count vin vout iter n (r.modPart c.s fun p => { p with recNo := p.recNo + 1 })
        r.guard c [(c.base + c.h.recOff + 16 * i, 16)] fun r =>
          let m := r.view c.s
          let k := svRecord m c.s c.base c.h i
          if k.kind = 8 then
            if k.a ≤ p.got then next r else r.modPart c.s fun p => { p with waiting := true }
          else r.guard c (recRanges c m vin vout i k) fun r => next (recExec c vin vout iter k r)

-- Method steps (R254, R255).

/-- A scalar of the part. -/
def SvPart.sc (p : SvPart) (k : Nat) : Scal := p.scal.get { v := 0, t := 0 } k

/-- A tile's partial of a dot product (R254). -/
def localDot (c : SvCtx) (u v : SvArr) (r : SvRun) : Scal × SvRun :=
  let z : Scal := { v := 0, t := 0 }
  let (ps, r) := foldN c.h.nloc (fun i ((ps, r) : Tab Scal × SvRun) =>
    let (x, r) := r.take c.s (Scal.fma c.d.fmt c.d.dual (r.get c u i) (r.get c v i) (Tab.get ps z (i % 8)))
    (Tab.set ps (i % 8) x, r)) (([] : Tab Scal), r)
  r.take c.s (treeScal c.d.fmt c.d.dual 3 ((List.range 8).map (Tab.get ps z)))

/-- Value of a method step over scalars: its destination and result (R255). -/
def scalarStep (c : SvCtx) (iter : Nat) (op : SvOp) (p : SvPart) (r : SvRun) : List (Nat × Scal) × SvRun :=
  let f := c.d.fmt
  let dual := c.d.dual
  match op with
  | .constS k one => ([(k, { v := if one then encFin f false 1 0 else 0, t := 0 })], r)
  | .copyS k a => ([(k, p.sc a)], r)
  | .mulS k a b => let (x, r) := r.take c.s (Scal.mul f dual (p.sc a) (p.sc b)); ([(k, x)], r)
  | .fmaS neg k a b d =>
    let x := p.sc a
    let (y, r) := r.take c.s (Scal.fma f dual (if neg then x.neg f else x) (p.sc b) (p.sc d))
    ([(k, y)], r)
  | .divS k a b => let (x, r) := r.div c iter 0 (p.sc a) (p.sc b); ([(k, x)], r)
  | .sqrtS k a => let (x, r) := r.sqrt c iter 0 (p.sc a); ([(k, x)], r)
  | .rotForm j a b =>
    let (q, r) := r.take c.s (Scal.mul f dual (p.sc b) (p.sc b))
    let (q, r) := r.take c.s (Scal.fma f dual (p.sc a) (p.sc a) q)
    let (den, r) := r.sqrt c iter 0 q
    let (x, r) := r.div c iter 0 (p.sc a) den
    let (y, r) := r.div c iter 0 (p.sc b) den
    ([(svC j, x), (svS j, y)], r)
  | .rot j x y =>
    let (q, r) := r.take c.s (Scal.mul f dual (p.sc (svS j)) (p.sc y))
    let (x', r) := r.take c.s (Scal.fma f dual (p.sc (svC j)) (p.sc x) q)
    let (q, r) := r.take c.s (Scal.mul f dual (p.sc (svS j)) (p.sc x))
    let (y', r) := r.take c.s (Scal.fma f dual (p.sc (svC j)) (p.sc y) (q.neg f))
    ([(x, x'), (y, y')], r)
  | _ => ([], r)

/-- An element-wise step over the local rows (R255). -/
def vectorStep (c : SvCtx) (iter : Nat) (op : SvOp) (p : SvPart) (r : SvRun) : SvRun :=
  let f := c.d.fmt
  let each := fun (dst : Nat) (g : Nat → SvRun → Scal × SvRun) =>
    foldN c.h.nloc (fun i r => let (x, r) := g i r; r.put c (c.vec dst) i iter x) r
  match op with
  | .zeroV v => each v fun _ r => ({ v := 0, t := 0 }, r)
  | .copyV dst src => each dst fun i r => r.take c.s ((r.get c (c.vec src) i).pass f c.d.dual)
  | .subV dst a b => each dst fun i r => r.take c.s (Scal.add f c.d.dual (r.get c (c.vec a) i) ((r.get c (c.vec b) i).neg f))
  | .fmaV neg dst sc a d =>
    let k := p.sc sc
    let k := if neg then k.neg f else k
    each dst fun i r => r.take c.s (Scal.fma f c.d.dual k (r.get c (c.vec a) i) (r.get c (c.vec d) i))
  | .divV dst a sc =>
    let (bv, r0) := r.exam c iter 0 (p.sc sc).v
    foldN c.h.nloc (fun i r =>
      let (x, r) := r.take c.s (Scal.div f c.d.dual (r.get c (c.vec a) i) (p.sc sc) bv)
      r.put c (c.vec dst) i iter x) r0
  | _ => r

/-- The vectors that a step touches. -/
def SvOp.vecs : SvOp → List Nat
  | .zeroV v => [v]
  | .copyV a b => [a, b]
  | .subV a b d => [a, b, d]
  | .fmaV _ a _ b d => [a, b, d]
  | .divV a b _ => [a, b]
  | .dot _ a b => [a, b]
  | _ => []

/-- A dot product: the partial is computed and sent once, and the span combine ends when every tile's is there (R254). -/
def dotStep (c : SvCtx) (sc u v : Nat) (p : SvPart) (r : SvRun) : SvRun :=
  let mine := c.h.rank
  let r := if p.sent then r
    else
      let (x, r) := localDot c (c.vec u) (c.vec v) r
      let r := r.modPart c.s fun p => { p with sent := true, partials := p.partials ++ [(p.combine, mine, x)] }
      { r with b := r.b.sendPieces ((c.tiles.zipIdx.filter fun (_, k) => k != mine).map fun (t, _) =>
          { src := r.b.svSelf c.s, dst := t, run := c.run, ord := p.combine, body := .partial_ mine x }) }
  match r.b.part c.s with
  | none => r
  | some p =>
    let have_ := p.partials.filter fun x => x.1 == p.combine
    let all := (List.range c.h.t).map fun k => (have_.find? fun x => x.2.1 == k).map fun x => x.2.2
    if all.all Option.isSome then
      let (x, r) := r.take c.s (spanSum c.d.fmt c.d.dual (all.filterMap id))
      r.modPart c.s fun p =>
        { p with scal := p.scal.set sc x, partials := p.partials.filter fun y => y.1 != p.combine, combine := p.combine + 1
                 sent := false, pos := p.pos + 1, waiting := false }
    else r.modPart c.s fun p => { p with waiting := true }

/-- A section execution begins: its ordinal, no piece received, and the pieces held for it written (R249). -/
def beginSection (c : SvCtx) (r : SvRun) : SvRun :=
  let r := r.modPart c.s fun p => { p with ord := p.ord + 1, got := 0, recNo := 0, inSect := true }
  { r with b := releasePieces c.s r.b }

/-- One step of the script, from where the part stands. -/
def svStep (c : SvCtx) (p : SvPart) (op : SvOp) (iter : Nat) (r : SvRun) : SvRun :=
  match op with
  | .sect k vin vout =>
    r.guard c [(c.base + c.h.sectOff, 128)] fun r =>
      let (first, count) := svSection (r.view c.s) c.s c.base c.h k c.d.dir
      let r := if p.inSect then r else beginSection c r
      let r := svRecords c first count vin vout iter (count + 1) r
      r.modPart c.s fun p =>
        if p.ended.isNone && !p.waiting && count ≤ p.recNo then { p with inSect := false, pos := p.pos + 1 } else p
  | _ =>
    r.guard c (op.vecs.flatMap fun v => c.ranges (c.vec v) 0 c.h.nloc) fun r => match op with
      | .dot sc u v => dotStep c sc u v p r
      | _ =>
        let (l, r) := scalarStep c iter op p (vectorStep c iter op p r)
        r.modPart c.s fun p => { p with scal := l.foldl (fun t x => t.set x.1 x.2) p.scal, pos := p.pos + 1 }

/-- The steps of a part until it ends or waits; the first argument bounds how many there are (R248). -/
def svSteps (c : SvCtx) : Nat → SvRun → SvRun
  | 0, r => r
  | n + 1, r =>
    match r.b.part c.s with
    | none => r
    | some p =>
      if p.ended.isSome || p.waiting || r.stall then r
      else match svStepAt c.d p.pos with
        | none => r.modPart c.s fun p => p.finish (if p.hit then svCollide else mxOk)
        | some (op, iter) => svSteps c n (svStep c p op iter r)

/-- The part of a site goes on from where it stands (R239, R248). -/
def svGo (e : Env) (s : Nat) (b : Body) : Body :=
  match b.part s with
  | none => b
  | some p =>
    let c := svCtx e s p b
    let reads := ((c.base, c.h.len) :: svRanges c.d c.h).filter fun r => (b.site s).ownsAll 4 [r] && !wakingIn (b.site s) r
    let (bad, b) := checkRanges e s reads (b.modPart s fun p => { p with waiting := false })
    (svSteps c (svLength c.d - p.pos + 1) { b := b, bad := bad }).b

end Sys2Proof.Machine
end

