-- ==== Sys2Proof/Machine/Sv.lean ====
section
/-! DEFINITION. The rows of the sparse-solver sequencer (R241 to R271). -/
namespace Sys2Proof.Machine

/-- The tile table of an image (R235). -/
def svTableOf (k : SvSlot) : Range := (k.base + 64, 2 * (SvHdr.ofNat k.hdr).t)

/-- The rank of a tile in the span of a launch; 0 where it has none. -/
def SvLaunch.rank (l : SvLaunch) (tile : Nat) : Nat := (l.tiles.findIdx? (· == tile)).getD 0

/-- What is held at a site for a run that is over is dropped (R249). -/
def svPrune (s : Nat) (b : Body) : Body := b.modSv s fun x => { x with held := x.held.filter fun p => !pieceOver b s p }

/-- An instruction or a forwarded launch ends with a status: its counter where it was issued here, LAST_STATUS, and for
a failing status the halt, SV_ERR and EPEND (R261, R262, R268). -/
def svFinish (e : Env) (s : Nat) (cc : Option Nat) (word : Word32) (st rank : Nat) (b : Body) : Body :=
  let b := match cc with
    | some c => b.advanceCc s c
    | none => b
  let b := b.modSv s fun x => { x with last := st }
  if st = mxOk || st = mxFlushed then b
  else haltEngine e s 2 (b.modSv s fun x =>
    { x with halted := true
             err := if bitOf x.err.toNat 63 then x.err
                    else BitVec.ofNat 64 (2 ^ 63 + rank % 512 * 2 ^ 48 + st * 2 ^ 40 + word.toNat) })

/-- The head leaves the queue, and a stalled issue is tried again. -/
def svPop (e : Env) (s : Nat) (b : Body) : Body :=
  retryIssue e s (svPrune s (b.modSv s fun x => { x with q := x.q.tail, part := none }))

/-- The issued instruction at the head, while no launch of it is under way and the sequencer is not halted. -/
def svHead (b : Body) (s : Nat) : Option QEntry :=
  let x := (b.site s).sv
  if x.halted || x.part.isSome || 408 ≤ s then none
  else match x.q with
    | .issued q :: _ => some q
    | _ => none

/-- An issued instruction completes. -/
def svComplete (e : Env) (s : Nat) (q : QEntry) (st : Nat) (b : Body) : Body :=
  svPop e s (svFinish e s (some q.svCc) q.word st 0 b)

/-- SV_LOAD (R241): validates an image and records it; it waits for a bank that wakes (R225). -/
def svLoad (s : Nat) (e : Env) (b : Body) : Body :=
  match svHead b s with
  | none => b
  | some q =>
    if q.svFunc != 1 then b
    else
      let a := q.a.toNat
      let t := b.site s
      if !svEncodingOk q then svComplete e s q mxEncoding b
      else if a % 64 != 0 then svComplete e s q mxShape b
      else if !t.ownsAll 4 [(a, 64)] then svComplete e s q mxBank b
      else
        let len := max 64 (SvHdr.ofNat (descAt b.mem s a)).len
        if t.wakingAny [(a, 64)] then b
        else if !t.ownsAll 4 [(a, len)] then svComplete e s q mxBank b
        else if t.wakingAny [(a, len)] then b
        else
          let (m, b) := sramView e s [(a, len)] b
          if svImageOk m s a (b.tileOf s) then
            svComplete e s q mxOk (b.modSv s fun x => { x with slots := x.slots.set q.svSlot (some { base := a, hdr := descAt m s a }) })
          else svComplete e s q svSched b

/-- SV_LOAD. -/
def execSvLoad (site : Nat) (s : State) : Host.Outcome State Fault Refusal := bodyStep (svLoad site) s

/-- SV_UNLOAD (R241). -/
def svUnload (s : Nat) (e : Env) (b : Body) : Body :=
  match svHead b s with
  | none => b
  | some q =>
    if q.svFunc != 2 then b
    else if !svEncodingOk q then svComplete e s q mxEncoding b
    else svComplete e s q mxOk (b.modSv s fun x => { x with slots := x.slots.set q.svSlot none })

/-- SV_UNLOAD. -/
def execSvUnload (site : Nat) (s : State) : Host.Outcome State Fault Refusal := bodyStep (svUnload site) s

/-- A part that has not started. -/
def SvPart.fresh (l : SvLaunch) (launcher : Bool) : SvPart where
  launch := l
  launcher := launcher
  started := false
  closed := false
  pos := 0
  recNo := 0
  ord := 0
  inSect := false
  got := 0
  scal := []
  partials := []
  combine := 0
  sent := false
  hit := false
  nonfinite := false
  nf := 0
  nfMine := false
  late := false
  waiting := false
  ended := none

/-- The span of a launch as the tile table of the slot's image names it, read by the launching tile; none where the slot is
empty or the table lies in a bank that its sequencer may not use, which R247 then reports. -/
def svSpan (e : Env) (s slot : Nat) (b : Body) : List Nat × Body :=
  match b.svImage s slot with
  | none => ([], b)
  | some k =>
    if !(b.site s).ownsAll 4 [svTableOf k] then ([], b)
    else
      let (m, b) := sramView e s [svTableOf k] b
      ((List.range (SvHdr.ofNat k.hdr).t).map (svTile m s k.base), b)

/-- Does a launch wait for a bank that wakes: its descriptor's or its image's tile table's (R225)? -/
def svLaunchWaits (b : Body) (s a : Nat) : Bool :=
  let t := b.site s
  let table := match b.svImage s (SvDesc.ofNat (descAt b.mem s a)).slot with
    | some k => [svTableOf k]
    | none => []
  t.wakingAny [(a, 64)] || t.wakingAny (table.filter fun r => t.ownsAll 4 [r])

/-- SV_LAUNCH (R246): reads the descriptor and forwards it to the other ranks in rising order; a reserved FUNC at the
head completes here too (R243). -/
def svLaunch (s : Nat) (e : Env) (b : Body) : Body :=
  match svHead b s with
  | none => b
  | some q =>
    let a := q.a.toNat
    if q.svFunc = 1 || q.svFunc = 2 then b
    else if !svEncodingOk q then svComplete e s q mxEncoding b
    else if a % 64 != 0 then svComplete e s q mxShape b
    else if !(b.site s).ownsAll 4 [(a, 64)] then svComplete e s q mxBank b
    else if svLaunchWaits b s a then b
    else
      let (m, b) := sramView e s [(a, 64)] b
      let desc := descAt m s a
      let no := ((b.site s).sv.runNo + 1) % 2 ^ 16
      let (tiles, b) := svSpan e s (SvDesc.ofNat desc).slot b
      let l : SvLaunch := { run := { tile := b.svSelf s, no := no }, desc := desc, word := q.word, tiles := tiles }
      let b := b.modSv s fun x => { x with runNo := no, part := some (SvPart.fresh l true) }
      { b with dev.flight.launches := b.dev.flight.launches ++ (tiles.filter (· != l.run.tile)).map fun t => (t, l) }

/-- SV_LAUNCH. -/
def execSvLaunch (site : Nat) (s : State) : Host.Outcome State Fault Refusal := bodyStep (svLaunch site) s

/-- Does solver traffic reach the tile of a site now (R27)? -/
def svReaches (b : Body) (s dst : Nat) : Bool := s < 408 && b.tileOf s == some dst && !b.holdOf dst

/-- FORWARDED_LAUNCH (R246): the oldest forwarded launch for the tile enters its queue, unless that is full. -/
def forwardedLaunch (s : Nat) (_ : Env) (b : Body) : Body :=
  match b.dev.flight.launches.find? fun l => svReaches b s l.1 with
  | none => b
  | some l =>
    if 8 ≤ (b.site s).sv.q.length then b
    else { b with dev.flight.launches := b.dev.flight.launches.erase l }.modSv s fun x =>
      { x with q := x.q ++ [SvEntry.forwarded l.2] }

/-- FORWARDED_LAUNCH. -/
def execForwardedLaunch (site : Nat) (s : State) : Host.Outcome State Fault Refusal := bodyStep (forwardedLaunch site) s

/-- The ECC check of slot and scalar state (R261, R434): was the error uncorrectable? -/
def svCheck (e : Env) (s : Nat) (b : Body) : Bool × Body :=
  match check (detOf 4 s) 0 b with
  | (some 1, b) => (false, recordErr e { kind := 4, sev := 0, inj := true, det := detOf 4 s, site := s } b)
  | (some _, b) => (true, recordErr e { kind := 5, sev := 1, inj := true, det := detOf 4 s, site := s } b)
  | (none, b) => (false, b)

/-- The section table of the image in a slot, where the sequencer may read it: a launch's checks look at it (R247). -/
def svLooksAt (t : Site) (slot : Option SvSlot) : List Range :=
  match slot with
  | some k => if t.ownsAll 4 [svTable k] then [svTable k] else []
  | none => []

/-- Does a fail notice of a run wait at a site (R251)? -/
def SvSt.told (x : SvSt) (run : RunId) : Bool := x.failed.any (·.1 == run)

/-- A part at the head is checked, waits for its kickoff, or starts (R247, R248, R251). R512's table has no step for
SPAN_FAIL or SV_UE: the model reports a failure notice that has come first, then an error of the sequencer's state, then
the checks of R247 (log entry 21). -/
def svBegin (e : Env) (s : Nat) (p : SvPart) (b : Body) : Body :=
  let d := p.d
  let stop := fun st (b : Body) => b.modPart s fun p => p.finish st
  let look := svLooksAt (b.site s) (b.svImage s d.slot)
  if (b.site s).sv.told p.run then stop svSpanFail b
  else if (b.site s).wakingAny look then b
  else
    let (ue, b) := svCheck e s b
    let (m, b) := sramView e s look b
    let st := svLaunchStatus (b.site s) m s (b.svImage s d.slot) d p.launcher
    if ue then stop svUe b
    else if st != mxOk then stop st b
    else if d.koen && !kickDue e.now d.kickoff then b
    else
      let late := d.koen && kickLate e.now d.kickoff
      let b := if d.koen then b.launchAt e d.kickoff else b
      let b := b.modSv s fun x => { x with late := x.late || late, past := none }
      svGo e s (releasePieces s (b.modPart s fun p => { p with started := true, late := late }))

/-- SV_PART_START (R248). -/
def svPartStart (s : Nat) (e : Env) (b : Body) : Body :=
  let x := (b.site s).sv
  if x.halted || 408 ≤ s then b
  else match x.q, x.part with
    | _ :: _, some p => if p.started || p.ended.isSome then b else svBegin e s p b
    | SvEntry.forwarded l :: _, none =>
      let p := SvPart.fresh l false
      svBegin e s p (b.modSv s fun x => { x with part := some p })
    | _, _ => b

/-- SV_PART_START. -/
def execSvPartStart (site : Nat) (s : State) (clash : List Nat := []) : Host.Outcome State Fault Refusal :=
  clashStep clash (svPartStart site) s

/-- SV_STAT.KWAIT: the part at the head waits on its kickoff (R248, R266). -/
def svKwait (e : Env) (b : Body) (s : Nat) : Bool :=
  let x := (b.site s).sv
  let p := match x.part, x.q with
    | some p, _ => some p
    | none, .forwarded l :: _ => some (SvPart.fresh l false)
    | none, _ => none
  match p with
  | none => false
  | some p =>
    !x.halted && !p.started && p.ended.isNone && p.d.koen && !kickDue e.now p.d.kickoff && !x.told p.run &&
    svLaunchStatus (b.site s) b.mem s (b.svImage s p.d.slot) p.d p.launcher == mxOk

/-- SV_PIECE_ARRIVE (R249): the oldest piece for the tile that can be taken is written, dropped, or held. A piece for a bank
that wakes waits, with every later one (R225). -/
def svPieceArrive (s : Nat) (_ : Env) (b : Body) : Body :=
  let b := releasePieces s b
  let x := (b.site s).sv
  let takes := fun (p : SvPiece) => svReaches b s p.dst && !pieceWaits (b.site s) p &&
    (pieceFits x p || pieceOver b s p || x.heldBytes + p.size ≤ 0x4000)
  match b.dev.flight.pieces.find? takes with
  | none => b
  | some p =>
    let b := { b with dev.flight.pieces := b.dev.flight.pieces.erase p }
    if pieceFits x p then deliverPiece s p b
    else if pieceOver b s p then b
    else b.modSv s fun x => { x with held := x.held ++ [p] }

/-- SV_PIECE_ARRIVE. -/
def execSvPieceArrive (site : Nat) (s : State) : Host.Outcome State Fault Refusal := bodyStep (svPieceArrive site) s

/-- SV_WAIT_SATISFIED (R225, R239, R254): a part that waits goes on where what it waits for is there; how long it waited in
a WAIT or a span combine is a matter of time, so SV_XWAIT_COUNT grows by a free number (R260). -/
def svWaitSatisfied (s : Nat) (e : Env) (b : Body) : Body :=
  match b.part s with
  | none => b
  | some p =>
    if 408 ≤ s || !p.started || p.ended.isSome then b
    else
      let b' := svGo e s (releasePieces s b)
      match b'.part s with
      | none => b
      | some p' =>
        if p'.ended.isNone && p'.pos == p.pos && p'.recNo == p.recNo then b
        else if !p.waiting then b'
        else
          let (n, b') := b'.freshValue
          b'.modSv s fun x => { x with xwait := x.xwait + n }

/-- SV_WAIT_SATISFIED. -/
def execSvWaitSatisfied (site : Nat) (s : State) (clash : List Nat := []) : Host.Outcome State Fault Refusal :=
  clashStep clash (svWaitSatisfied site) s

/-- A part of a tile other than the launching one reports: DCC and the done piece (R250). -/
def svReport (s : Nat) (p : SvPart) (st : Nat) (b : Body) : Body :=
  let b := if p.d.dcen then b.advanceCc s p.d.dcc else b
  { b with dev.flight.dones := b.dev.flight.dones ++
      [(p.run.tile, { run := p.run, tile := b.svSelf s, status := st, nonfinite := p.nonfinite, nf := p.nf, late := p.late })] }

/-- The residual measure of a part: that of R255 for an iterative operation that ended well, +0 for a direct one, and
open where an iterative one failed, the same for equal runs (R251, R252, R270, R413; log entry 70). -/
def svResid (p : SvPart) (st : Nat) : Word64 :=
  if !p.d.iterative then 0
  else if st = mxOk then BitVec.ofNat 64 (convertElem p.d.fmt 0 (p.sc svRes).v .rne).1
  else Config.failedResid p.launch.desc

/-- The arrays that a part's run writes (R245), by the slot that the part runs from. -/
def svPartWrites (b : Body) (s : Nat) (p : SvPart) : List Range :=
  match b.svImage s p.d.slot with
  | some k => svWrites p.d (SvHdr.ofNat k.hdr)
  | none => []

/-- The arrays of a failed run: each byte of them that the sequencer could write is open (R251; log entry 70). -/
def svUndefine (s desc : Nat) (rs : List Range) (b : Body) : Body :=
  let t := b.site s
  { b with mem := rs.foldl (fun m r => foldN r.2 (fun i m =>
      let a := siteBase s + r.1 + i
      if t.owns 4 ((r.1 + i) / 0x10000) then m.set a (Config.failedByte desc (r.1 + i) (m.get a)) else m) m) b.mem }

/-- What the arrays of a part become at its end, the run having failed or not: a part that ended well remembers them, since
another part may fail yet (R251). -/
def svLeave (s : Nat) (p : SvPart) (failed : Bool) (b : Body) : Body :=
  if !p.started then b
  else if failed then svUndefine s p.launch.desc (svPartWrites b s p) b
  else b.modSv s fun x => { x with past := some (p.run, p.launch.desc, svPartWrites b s p) }

/-- The rank that SV_ERR names (R268). -/
def svErrRank (b : Body) (s : Nat) (p : SvPart) (st : Nat) : Nat :=
  p.launch.rank <| if st = svSpanFail then
      match (b.site s).sv.failed.find? (·.1 == p.run) with
      | some f => f.2
      | none => match (b.site s).sv.dones.find? fun d => d.run == p.run && d.status != mxOk with
        | some d => d.tile
        | none => b.svSelf s
    else b.svSelf s

/-- What a part leaves behind when it ends: SV_RUN_COUNT, SV_RUN_CYCLES, whose value is a matter of time and so free,
and SV_RESID (R270). -/
def svAccount (s : Nat) (p : SvPart) (st : Nat) (b : Body) : Body :=
  let (n, b) := b.freshValue
  b.modSv s fun x => { x with runs := x.runs + 1, runCycles := n, resid := svResid p st }

/-- The notices of a run are forgotten. -/
def svForget (s : Nat) (run : RunId) (b : Body) : Body :=
  b.modSv s fun x => { x with failed := x.failed.filter (·.1 != run), dones := x.dones.filter (·.run != run) }

/-- What a part's end sends and leaves, whoever launched it: the fail notices, and its arrays (R251). -/
def svClose (s : Nat) (p : SvPart) (st : Nat) (b : Body) : Body :=
  let b := svLeave s p (st != mxOk || (b.site s).sv.told p.run) (svAccount s p st b)
  if st = mxOk then b else svNotify s p.launch b

/-- SV_PART_END (R250, R251). -/
def svPartEnd (s : Nat) (e : Env) (b : Body) : Body :=
  match b.part s with
  | none => b
  | some p =>
    match p.ended with
    | none => b
    | some st =>
      if p.closed || 408 ≤ s then b
      else
        let b := svClose s p st b
        if p.launcher then b.modPart s fun p => { p with closed := true }
        else
          let b := svReport s p st b
          svPop e s (svForget s p.run (svFinish e s none p.launch.word st (svErrRank b s p st) b))

/-- SV_PART_END. -/
def execSvPartEnd (site : Nat) (s : State) : Host.Outcome State Fault Refusal := bodyStep (svPartEnd site) s

/-- SV_DONE_PIECE (R250): the oldest done piece for the tile; one of a run that is over is dropped. -/
def svDonePiece (s : Nat) (_ : Env) (b : Body) : Body :=
  match b.dev.flight.dones.find? fun x => svReaches b s x.1 with
  | none => b
  | some x =>
    let b := { b with dev.flight.dones := b.dev.flight.dones.erase x }
    match b.part s with
    | some p => if p.launcher && p.run == x.2.run then b.modSv s fun y => { y with dones := y.dones ++ [x.2] } else b
    | none => b

/-- SV_DONE_PIECE. -/
def execSvDonePiece (site : Nat) (s : State) : Host.Outcome State Fault Refusal := bodyStep (svDonePiece site) s

/-- The result record (R252). -/
def svResult (run : RunId) (st : Nat) (nonfinite late : Bool) (nf resid cycles : Word64) : Nat :=
  st + b2n nonfinite * 2 ^ 8 + b2n late * 2 ^ 9 + run.no * 2 ^ 16 + nf.toNat * 2 ^ 64 + resid.toNat * 2 ^ 128 + cycles.toNat * 2 ^ 192

/-- The result record written (R250, R252): whatever the run's status, where RADDR names 32 bytes that the sequencer may
write. The status that the run then has: BANK_OWN where a good run's bytes were handed away, COLLIDE where they lost a
collision. -/
def svWriteResult (e : Env) (s : Nat) (d : SvDesc) (st : Nat) (v : Nat) (b : Body) : Nat × Body :=
  if !d.ren || d.raddr % 8 != 0 then (st, b)
  else if !(b.site s).ownsAll 4 [(d.raddr, 32)] then (if st = mxOk then mxBank else st, b)
  else
    let (hit, b) := unitWrite e 4 s (d.raddr, 32) (b.mem.setNum (siteBase s + d.raddr) 32 v) b
    (if hit && st = mxOk then svCollide else st, b)

/-- SV_RUN_COMPLETE (R250, R252): once the own part has ended and every done piece is there. SV_NFINFO takes the event of
the lowest rank unless it holds one of before this run (R269; log entry 70). -/
def svRunComplete (s : Nat) (e : Env) (b : Body) : Body :=
  match b.part s with
  | none => b
  | some p =>
    let x := (b.site s).sv
    let d := p.d
    let tiles := p.launch.tiles
    let ds := x.dones.filter (·.run == p.run)
    if !p.closed || 408 ≤ s || ds.length < tiles.length - 1 || (b.site s).wakingAny (svRecordRange d true) then b
    else
      let own := p.ended.getD mxOk
      let st := if own != mxOk then own else if ds.any (·.status != mxOk) then svSpanFail else mxOk
      let nonfinite := p.nonfinite || ds.any (·.nonfinite)
      let late := p.late || ds.any (·.late)
      let evs := (tiles.map fun t =>
        if t = b.svSelf s then p.nf else match ds.find? (·.tile == t) with | some k => k.nf | none => 0).filter (· != 0)
      let nf := evs.headD 0
      let keeps := bitOf x.nfinfo.toNat 63 && !p.nfMine
      let b := b.modSv s fun x =>
        { x with nonfinite := x.nonfinite || nonfinite, nfinfo := if nf = 0 || keeps then x.nfinfo else nf }
      let b := if p.started && own = mxOk && st != mxOk then svUndefine s p.launch.desc (svPartWrites b s p) b else b
      let (n, b) := b.freshValue
      let (st, b) := svWriteResult e s d st (svResult p.run st nonfinite late nf (b.site s).sv.resid n) b
      let cc := match x.q with
        | .issued q :: _ => some q.svCc
        | _ => none
      svPop e s (svForget s p.run (svFinish e s cc p.launch.word st (svErrRank b s p st) b))

/-- SV_RUN_COMPLETE. -/
def execSvRunComplete (site : Nat) (s : State) (clash : List Nat := []) : Host.Outcome State Fault Refusal :=
  clashStep clash (svRunComplete site) s

/-- The run whose part ended well here has failed: what that part wrote is undefined after all (R251). -/
def svPastFails (s : Nat) (run : RunId) (b : Body) : Body :=
  match (b.site s).sv.past with
  | some (r, desc, rs) => if r == run then (svUndefine s desc rs b).modSv s fun x => { x with past := none } else b
  | none => b

/-- SV_FAIL_NOTICE (R251): kept for a part still to begin; a part that waits ends at once; the arrays of one that has ended
become undefined. -/
def svFailNotice (s : Nat) (_ : Env) (b : Body) : Body :=
  match b.dev.flight.fails.find? fun f => svReaches b s f.1 with
  | none => b
  | some (t, run, src) =>
    let b := { b with dev.flight.fails := b.dev.flight.fails.erase (t, run, src) }
    let x := (b.site s).sv
    let mine := match x.part with
      | some p => p.run == run
      | none => false
    let queued := x.q.any fun
      | .forwarded l => l.run == run
      | .issued _ => false
    if mine || queued || b.dev.flight.launches.any (fun l => l.1 == t && l.2.run == run) then
      let b := b.modSv s fun x => { x with failed := if x.told run then x.failed else x.failed ++ [(run, src)] }
      if mine then b.modPart s fun p => p.finish svSpanFail else b
    else svPastFails s run b

/-- SV_FAIL_NOTICE. -/
def execSvFailNotice (site : Nat) (s : State) : Host.Outcome State Fault Refusal := bodyStep (svFailNotice site) s

/-- An entry of the queue ends with a status (R251, R262): a launch that other tiles know of sends its notices and its
report. -/
def svEndEntry (e : Env) (s st : Nat) (part : Option SvPart) (x : SvEntry) (b : Body) : Body :=
  match x with
  | .issued q =>
    let b := match part with
      | some p => if p.launcher && !p.closed then svClose s p st b else b
      | none => b
    let rank := match part with
      | some p => svErrRank b s p st
      | none => 0
    svFinish e s (some q.svCc) q.word st rank b
  | .forwarded l =>
    let p := part.getD (SvPart.fresh l false)
    let b := if part.isSome then svClose s p st b else svNotify s l b
    svFinish e s none l.word st (svErrRank b s p st) (svReport s p st b)

/-- The queue emptied: a part under way ends with `st`, what has not begun with FLUSHED (R262, R477). -/
def svEndAll (s st : Nat) (e : Env) (b : Body) : Body :=
  let x := (b.site s).sv
  let b := match x.q with
    | [] => b
    | h :: r => overList r (svEndEntry e s mxFlushed none) (svEndEntry e s (if x.part.isSome then st else mxFlushed) x.part h b)
  retryIssue e s (svPrune s (b.modSv s fun x =>
    { x with q := [], part := none, dones := []
             failed := x.failed.filter fun f => b.dev.flight.launches.any (·.2.run == f.1) }))

/-- SV_FLUSH (R262, R265). -/
def svFlush (s : Nat) (e : Env) (b : Body) : Body :=
  (svEndAll s mxFlushed e b).modSv s fun x => { x with halted := false }

/-- SV_FLUSH. -/
def execSvFlush (ag : Agent) (site : Nat) (s : State) : Host.Outcome State Fault Refusal :=
  bodyStep (fun e b => atSite site b (guarded e ag (oTl site 0x3000) b (svFlush site e b))) s

/-- SV_RESUME (R265). -/
def execSvResume (ag : Agent) (site : Nat) (s : State) : Host.Outcome State Fault Refusal :=
  bodyStep (fun e b => atSite site b (guarded e ag (oTl site 0x3000) b
    (b.modSv site fun x => { x with halted := false }))) s

end Sys2Proof.Machine
end

