-- ==== Sys2Proof/Machine/Trans.lean ====
section
/-! DEFINITION. The correctly rounded EXP, LOG, TANH and SIGM of R140. Each is enclosed between two numbers at a
fixed-point precision; where both round to one result, that is the correctly rounded one, else the precision doubles. -/
namespace Sys2Proof.Machine

/-- Terms of `Σ z^(2i+1) / (2i+1)` at `k` fraction bits, each rounded down; `t` is the current odd power. -/
def atanhTerms (z2n z2d : Nat) : Nat → Nat → Nat → Nat → Nat
  | 0, _, _, acc => acc
  | n + 1, i, t, acc => atanhTerms z2n z2d n (i + 1) (t * z2n / z2d) (acc + t / (2 * i + 1))

/-- A lower bound of `atanh (num / den)` at `k` fraction bits, for `num / den ≤ 1/3`; it is short by less than `2 k`. -/
def atanhLo (num den k : Nat) : Nat :=
  atanhTerms (num * num) (den * den) (k / 3 + 2) 0 ((num <<< k) / den) 0

/-- A lower bound of `ln 2` at `k` fraction bits, short by less than `4 k`. -/
def ln2Lo (k : Nat) : Nat := 2 * atanhLo 1 3 k

/-- Terms of `Σ r^i / i!` at `k` fraction bits. -/
def expTerms (r k : Nat) : Nat → Nat → Nat → Nat → Nat
  | 0, _, _, acc => acc
  | n + 1, i, t, acc => expTerms r k n (i + 1) ((t * r) >>> k / (i + 1)) (acc + t)

/-- Bounds of `e^x` for `x = a / 2^k` with `0 ≤ a`: `(lo, hi, n)` encloses `e^x · 2^k / 2^n`. -/
def expBounds (a k : Nat) : Nat × Nat × Nat :=
  let l := ln2Lo k
  let n := a / l
  let r := a - n * l
  let t := expTerms r k (k / 2 + 4) 0 (2 ^ k) 0
  let slack := 16 * k * (n + 2)
  (t - 2 * slack, t + 2 * slack, n)

/-- Try a sequence of precisions: `f k` encloses the result between two numbers; answer the rounding both agree on. -/
def ziv (c : Nat) (f : Nat → Num × Num) : Nat → Nat → Nat × FFlags
  | 0, k => roundFloat c (f k).1 .rne
  | n + 1, k =>
    let (lo, hi) := f k
    let a := roundFloat c lo .rne
    let b := roundFloat c hi .rne
    if a.1 = b.1 then a else ziv c f n (2 * k)

/-- A number just above (`up`) or just below the finite number `± m · 2^e`: nothing the formats hold lies between. -/
def justBeside (up : Bool) (s : Bool) (m : Nat) (e : Int) : Num :=
  if up then .fin s (m <<< 200) (e - 200) true else .fin s ((m <<< 200) - 1) (e - 200) true

/-- `|x| · 2^k`, rounded down, of a finite number. -/
def fixedOf (m : Nat) (e : Int) (k : Nat) : Nat := shiftNat m (e + k)

/-- e^x (R140). -/
def expNum (c : Nat) (s : Bool) (m : Nat) (e : Int) : Nat × FFlags :=
  let x := Num.fin false m e false
  if m = 0 then roundFloat c Num.one .rne
  else if Num.log2 x < -70 then roundFloat c (justBeside (!s) false 1 0) .rne
  else if 11 < Num.log2 x then roundFloat c (.fin false 1 (if s then -8192 else 8192) true) .rne
  else ziv c (fun k =>
    let (lo, hi, n) := expBounds (fixedOf m e k) k
    if s then
      (.fin false (2 ^ (2 * k) / hi) (-(k : Int) - n) true, .fin false (2 ^ (2 * k) / lo + 1) (-(k : Int) - n) true)
    else (.fin false lo (n - (k : Int)) true, .fin false hi (n - (k : Int)) true)) 4 320

/-- ln x of a positive number (R140). -/
def logNum (c : Nat) (m : Nat) (e : Int) : Nat × FFlags :=
  let l := bitLen m
  -- x = f · 2^n with f in [1/√2, √2)
  let big := 2 * (m * m) < 2 ^ (2 * l)
  let n : Int := (l : Int) + e - (if big then 1 else 0)
  let d := if big then 2 ^ (l - 1) else 2 ^ l
  let num := if d ≤ m then m - d else d - m
  if num = 0 && n = 0 then roundFloat c (Num.zero false) .rne
  else ziv c (fun k =>
    let t : Int := 2 * (atanhLo num (m + d) k : Nat)
    let v : Int := n * (ln2Lo k : Nat) + (if d ≤ m then t else -t)
    let slack : Int := 8 * k * (n.natAbs + 2)
    let lo := v - slack
    let hi := v + slack
    (.fin (decide (lo < 0)) lo.natAbs (-(k : Int)) true, .fin (decide (hi < 0)) hi.natAbs (-(k : Int)) true)) 4 320

/-- tanh |x|, with the sign put back (R140). -/
def tanhNum (c : Nat) (s : Bool) (m : Nat) (e : Int) : Nat × FFlags :=
  let x := Num.fin false m e false
  if m = 0 then roundFloat c (Num.zero s) .rne
  else if Num.log2 x < -40 then roundFloat c (justBeside false s m e) .rne
  else if 6 < Num.log2 x then roundFloat c (justBeside false s 1 0) .rne
  else ziv c (fun k =>
    let (lo, hi, n) := expBounds (fixedOf m (e + 1) k) k
    let f (v : Nat) (r : Nat) := Num.fin s ((((v <<< n) - 2 ^ k) <<< k) / ((v <<< n) + 2 ^ k) + r) (-(k : Int)) true
    (f lo 0, f hi 1)) 4 320

/-- 1 / (1 + e^−x) (R140). -/
def sigmNum (c : Nat) (s : Bool) (m : Nat) (e : Int) : Nat × FFlags :=
  let x := Num.fin false m e false
  if m = 0 then roundFloat c (.fin false 1 (-1) false) .rne
  else if Num.log2 x < -70 then roundFloat c (justBeside (!s) false 1 (-1)) .rne
  else if 11 < Num.log2 x then
    if s then roundFloat c (.fin false 1 (-8192) true) .rne else roundFloat c (justBeside false false 1 0) .rne
  else ziv c (fun k =>
    let (lo, hi, n) := expBounds (fixedOf m e k) k
    -- with E = e^|x|: 1 / (1 + E) for a negative x, E / (1 + E) for a positive one
    let w := 2 * k + 2 * n
    let f (v : Nat) (r : Nat) : Num :=
      let den := (v <<< n) + 2 ^ k
      .fin false (((if s then 2 ^ k else v <<< n) <<< w) / den + r) (-(w : Int)) true
    if s then (f hi 0, f lo 1) else (f lo 0, f hi 1)) 4 320

/-- EXP, LOG, TANH and SIGM (`0` to `3`) on an element of a float format, with the special results of R140. -/
def fpTrans (op c a : Nat) : Nat × FFlags :=
  let (x, f) := readElem c a
  let (r, g) : Nat × FFlags := match x with
    | .nan => (canonNan c, fNanIn)
    | .inf s => match op with
      | 0 => roundFloat c (if s then Num.zero false else .inf false) .rne
      | 1 => if s then (canonNan c, fInvalid) else roundFloat c (.inf false) .rne
      | 2 => roundFloat c (.fin s 1 0 false) .rne
      | _ => roundFloat c (if s then Num.zero false else Num.one) .rne
    | .fin s m e _ => match op with
      | 0 => expNum c s m e
      | 1 => if m = 0 then roundFloat c (.inf true) .rne
             else if s then (canonNan c, fInvalid) else logNum c m e
      | 2 => tanhNum c s m e
      | _ => sigmNum c s m e
  (r, f ||| g)

end Sys2Proof.Machine
end

