-- ==== Sys2Proof/Machine/VxOps.lean ====
section
/-! DEFINITION. Element programs of the vector engine: program words (R135 to R138, R142), launch checks (R136, R145,
R149, R151, R512), micro-operations on strips (R139 to R147, R151, R126), and summaries (R152 to R154). -/
namespace Sys2Proof.Machine

/-- REJ_PROG of a vector instruction (R155). -/
def vxProg : Nat := 0x05

/-- VREG_UE of a vector instruction (R155). -/
def vxRegUe : Nat := 0x0B

-- Fields of a vector instruction (R131).

/-- SLOT. -/
def QEntry.vxSlot (q : QEntry) : Nat := bitsOf q.word.toNat 19 3
/-- DUALF. -/
def QEntry.vxDual (q : QEntry) : Bool := bitOf q.word.toNat 2

/-- Reserved or malformed encodings (R132). -/
def vxEncodingOk (q : QEntry) : Bool :=
  let w := q.word.toNat
  bitsOf w 0 2 == 0 &&
  match q.mxFunc with
  | 0 => true
  | 1 => bitsOf w 9 5 == 0 && bitsOf w 2 3 == 0
  | 2 | 3 => bitsOf w 9 5 == 0 && bitsOf w 2 3 == 0 && q.vxSlot == 0
  | _ => false

/-- Lanes of a working format (R129); 0 for a code that is none. -/
def lanesOf (wf : Nat) : Nat := match wf with | 0 => 64 | 1 => 128 | 2 => 256 | 3 => 256 | 9 => 128 | _ => 0

-- Micro-operation words (R137).

/-- A micro-operation word. -/
abbrev Uop := Nat

/-- OP. -/
def Uop.op (u : Uop) : Nat := bitsOf u 58 6
/-- VD. -/
def Uop.vd (u : Uop) : Nat := bitsOf u 53 5
/-- VA. -/
def Uop.va (u : Uop) : Nat := bitsOf u 48 5
/-- VB. -/
def Uop.vb (u : Uop) : Nat := bitsOf u 43 5
/-- VC. -/
def Uop.vc (u : Uop) : Nat := bitsOf u 38 5
/-- KP. -/
def Uop.kp (u : Uop) : Nat := bitsOf u 35 3
/-- KD. -/
def Uop.kd (u : Uop) : Nat := bitsOf u 32 3
/-- MZ, which BCAST carries in bit 52. -/
def Uop.mz (u : Uop) : Bool := bitOf u (if u.op = 2 then 52 else 31)
/-- STR. -/
def Uop.str (u : Uop) : Nat := bitsOf u 28 3
/-- CFMT. -/
def Uop.cfmt (u : Uop) : Nat := bitsOf u 24 4
/-- RDEF. -/
def Uop.rdef (u : Uop) : Bool := bitOf u 23
/-- RSEL. -/
def Uop.rsel (u : Uop) : Bool := bitOf u 22
/-- SSLOT. -/
def Uop.sslot (u : Uop) : Nat := bitsOf u 19 3
/-- ONCE, which BCAST carries in bit 51. -/
def Uop.once (u : Uop) : Bool := bitOf u (if u.op = 2 then 51 else 18)

/-- The rounding selection of a micro-operation in a run: SR or not (R137, R186). -/
def Uop.sr (u : Uop) (q : QEntry) : Bool := if u.rdef then q.sr else u.rsel && q.sren

/-- LD, ST and RND name a stream. -/
def Uop.streams (u : Uop) : Bool := u.op == 0 || u.op == 1 || u.op == 0x17

/-- A summary micro-operation. -/
def Uop.sums (u : Uop) : Bool := 0x20 ≤ u.op && u.op ≤ 0x25

/-- The operations that the table of R138 lists. -/
def Uop.known (u : Uop) : Bool := u.op ≤ 0x1A || u.sums

/-- The operations it allows to a float WFMT only. -/
def Uop.floatOnly (u : Uop) : Bool := (7 ≤ u.op && u.op ≤ 0xD) || u.op == 0x16 || u.op == 0x17 || u.op == 0x24

/-- Compares and mask operations write KD. -/
def Uop.writesMask (u : Uop) : Bool := (0x13 ≤ u.op && u.op ≤ 0x16) || (0x18 ≤ u.op && u.op ≤ 0x1A)

/-- Reserved bits of a micro-operation word (R137). -/
def Uop.reservedOk (u : Uop) : Bool :=
  if u.op = 2 then bitsOf u 48 3 == 0 && u.vb == 0 && u.vc == 0 && u.kd == 0 else bitsOf u 0 18 == 0

/-- CFMT of RND that a working format allows (R142). -/
def rndOk (wf c : Nat) : Bool :=
  match wf with
  | 0 => (1 ≤ c && c ≤ 8) || (0xA ≤ c && c ≤ 0xC)
  | 1 => (2 ≤ c && c ≤ 8) || (0xA ≤ c && c ≤ 0xC)
  | 2 | 3 => (4 ≤ c && c ≤ 8) || c == 0xB || c == 0xC
  | _ => false

/-- Does LD widen a format exactly into a working format (R59, R145, R146)? -/
def widens (fmt wf : Nat) : Bool :=
  match wf with
  | 0 => fmt ≤ 12
  | 9 => fmtIsInt fmt
  | _ => fmt == wf || rndOk wf fmt

/-- The register operands that a micro-operation uses (R138, R151). -/
def Uop.regs (u : Uop) : List Nat :=
  match u.op with
  | 0x00 | 0x02 => [u.vd]
  | 0x01 | 0x16 | 0x20 | 0x21 | 0x22 | 0x24 => [u.va]
  | 0x03 | 0x09 | 0x0A | 0x0B | 0x0C | 0x0D | 0x10 | 0x17 => [u.vd, u.va]
  | 0x04 | 0x05 | 0x06 | 0x08 | 0x0E | 0x0F | 0x12 => [u.vd, u.va, u.vb]
  | 0x07 | 0x11 => [u.vd, u.va, u.vb, u.vc]
  | 0x13 | 0x14 | 0x15 => [u.va, u.vb]
  | _ => []

-- Program headers (R135).

/-- LEN. -/
def hdrLen (h : Nat) : Nat := bitsOf h 0 7
/-- WFMT. -/
def hdrFmt (h : Nat) : Nat := bitsOf h 8 4
/-- NSTR. -/
def hdrStr (h : Nat) : Nat := bitsOf h 12 3

/-- A header that VX.PLOAD accepts (R136). -/
def hdrOk (h : Nat) : Bool :=
  1 ≤ hdrLen h && hdrLen h ≤ 64 && lanesOf (hdrFmt h) != 0 && hdrStr h ≤ 4 && !bitOf h 7 && h >>> 15 == 0

/-- A program that VX.PLOAD accepts (R136). -/
def progOk (h : Nat) (us : List Uop) : Bool :=
  let slots := (us.filter Uop.sums).map Uop.sslot
  hdrOk h && us.all (fun u => u.known && u.reservedOk && (hdrFmt h != 9 || !u.floatOnly) &&
    (u.op != 0x17 || rndOk (hdrFmt h) u.cfmt) && (!u.streams || u.str < hdrStr h) && (!u.writesMask || u.kd != 0)) &&
  slots.length == slots.eraseDups.length

/-- A program that may run in dual form (R151). -/
def dualProgOk (h : Nat) (us : List Uop) : Bool := hdrFmt h ≤ 1 && us.all fun u => u.regs.all fun r => r % 2 == 0

/-- The header of a slot. -/
def VxSt.header (x : VxSt) (slot : Nat) : Nat := (x.hdr.get 0 slot).toNat

/-- The micro-operations of a slot's program. -/
def VxSt.program (x : VxSt) (slot : Nat) : List Uop :=
  (List.range (hdrLen (x.header slot))).map fun u => (x.prog.get 0 (slot * 64 + u)).toNat

/-- The addresses of the stream descriptors that the head reads (R143). -/
def vxDescs (x : VxSt) (q : QEntry) : List Nat :=
  if q.mxFunc = 0 then (List.range (hdrStr (x.header q.vxSlot))).map fun i => q.a.toNat + 64 * i else []

/-- Elements of a run that a stream holds (R144). -/
def TDesc.runElems (t : TDesc) (n : Nat) : Nat := min n (t.rows * t.cols)

/-- The bytes of a stream that a run of N elements may access (R144, R149). -/
def TDesc.runRanges (t : TDesc) (n : Nat) (dual : Bool) : List Range :=
  let k := t.runElems n
  let rows := List.range (if t.cols = 0 then 0 else cdiv k t.cols)
  rows.map (fun i => (t.addr + i * t.rstride, cdiv (min t.cols (k - i * t.cols) * fmtWidth t.fmt) 8)) ++
  (if t.scale = 0 then [] else [(t.saddr, cdiv k (blockSize t.scale))]) ++
  (if dual && t.dual then
    rows.map fun i => (t.taddr + i * t.tstride, min t.cols (k - i * t.cols) * fmtWidth t.tfmt / 8) else [])

/-- How a program uses a stream: loaded, stored, and rounded stochastically. -/
structure StrUse where
  ld : Bool
  st : Bool
  any : Bool
  sr : Bool

/-- The use of stream `i`. -/
def strUse (us : List Uop) (q : QEntry) (i : Nat) : StrUse :=
  let mine := us.filter fun u => u.streams && u.str == i
  { ld := mine.any (·.op == 0), st := mine.any (·.op == 1), any := !mine.isEmpty,
    sr := mine.any fun u => u.op != 0 && u.sr q }

/-- Format conditions of a stream (R115, R125, R145). -/
def strFmtOk (t : TDesc) (wf : Nat) (dual : Bool) (u : StrUse) : Bool :=
  t.fmt ≤ 12 && t.dualOk &&
  (!u.ld || (if isScaled t.fmt t.scale t.coarse then wf != 9 else widens t.fmt wf)) &&
  (!u.st || fmtIsInt t.fmt == (wf == 9)) && !(dual && t.dual && t.tfmt == 0 && wf == 1)

/-- Shape conditions of a stream in a run of N elements (R50, R76, R116, R144, R145). -/
def strShapeOk (t : TDesc) (n : Nat) (u : StrUse) : Bool :=
  let k := blockSize t.scale
  t.packOk && t.inTensor && t.tstrideOk && n % k == 0 && t.colOrg % k == 0 && t.cols % k == 0 &&
  (!u.st || n ≤ t.rows * t.cols) && (!u.any || n == 0 || t.rows * t.cols != 0)

/-- Does R69 refuse a stream of a run of N elements? R145 names the linear index that R69 refuses and R68 the counters that use
one: the model refuses a stream that is rounded stochastically in the run when an element of the run would need a counter
index, its linear index div 8, of 2^40 or more (log entry 68). -/
def strCounterBad (t : TDesc) (n : Nat) (u : StrUse) : Bool :=
  let k := t.runElems n
  u.sr && k != 0 && decide (2 ^ 40 ≤ t.index ((k - 1) / t.cols) ((k - 1) % t.cols) / 8)

/-- The status with which a run's checks end, `ds` being its stream descriptors; 0 lets it execute (R145, R149, R151,
R512). -/
def vxRunStatus (t : Site) (ds : List Nat) (q : QEntry) : Nat :=
  let x := t.vx
  let h := x.header q.vxSlot
  let us := x.program q.vxSlot
  let n := q.b.toNat
  if q.a.toNat % 64 != 0 then mxShape
  else if !t.ownsAll 3 [(q.a.toNat, 64 * hdrStr h)] then mxBank
  else if !progOk h us || (q.vxDual && !dualProgOk h us) then vxProg
  else
    let ss := ds.zipIdx.map fun (d, i) => (TDesc.ofNat d, strUse us q i)
    if !ss.all (fun (d, u) => strFmtOk d (hdrFmt h) q.vxDual u) then mxFormat
    else if 2 ^ 24 < n || !ss.all (fun (d, u) => strShapeOk d n u) then mxShape
    else if !ss.all (fun (d, _) => d.scaleOk) then mxScale
    else if ss.any (fun (d, u) => strCounterBad d n u) then mxCounter
    else if !ss.all (fun (d, u) => !(u.ld || u.st) || t.ownsAll 3 (d.runRanges n q.vxDual)) then mxBank
    else mxOk

-- Lanes.

/-- Lane `l` of a register read under a working format (R129). -/
def VxSt.lane (x : VxSt) (wf r l : Nat) : Nat := bitsOf (x.v.get 0 r) (fmtWidth wf * l) (fmtWidth wf)

/-- Lane `l` of a register written. -/
def VxSt.setLane (x : VxSt) (wf r l v : Nat) : VxSt :=
  { x with v := x.v.set r (putBits (x.v.get 0 r) (fmtWidth wf * l) (fmtWidth wf) v) }

/-- Bit `l` of a mask register. -/
def VxSt.maskBit (x : VxSt) (k l : Nat) : Bool := bitOf (x.k.get 0 k) l

/-- Bit `l` of a mask register written. -/
def VxSt.setMask (x : VxSt) (k l : Nat) (v : Bool) : VxSt := { x with k := x.k.set k (putBits (x.k.get 0 k) l 1 (b2n v)) }

/-- INT32 results saturate (R140). -/
def sat32 (v : Int) : Nat × FFlags :=
  if v < -(2 ^ 31) then (0x8000_0000, fSat) else if 2 ^ 31 ≤ v then (0x7FFF_FFFF, fSat) else (uBits 32 v, 0)

/-- CLAMP (R141): the result, its flags, and whether it is `a` itself. -/
def fpClamp (c a lo hi : Nat) : Nat × FFlags × Bool :=
  let (x, f) := readElem c a
  let (y, g) := readElem c lo
  let (z, h) := readElem c hi
  let fl := f ||| g ||| h
  if x.isNan || y.isNan || z.isNan then (canonNan c, fl ||| fNanIn, false)
  else if Num.ltZ z y then (canonNan c, fl ||| fInvalid, false)
  else if Num.ltZ x y then (canonElem c lo, fl, false)
  else if Num.ltZ z x then (canonElem c hi, fl, false)
  else (canonElem c a, fl, true)

/-- ABS (R138, R140). -/
def fpAbs (c a : Nat) : Nat × FFlags :=
  let (x, f) := readElem c a
  let (r, g) := arith c x.isNan (x.abs, false) .rne
  (r, f ||| g)

/-- The value of an INT32 micro-operation (R138, R140, R141). -/
def intOp (op a b c : Nat) : Nat × FFlags :=
  let x := sInt 32 a
  let y := sInt 32 b
  let z := sInt 32 c
  match op with
  | 0x04 => sat32 (x + y)
  | 0x05 => sat32 (x - y)
  | 0x06 => sat32 (x * y)
  | 0x0E => (if y < x then b else a, 0)
  | 0x0F => (if x < y then b else a, 0)
  | 0x10 => sat32 x.natAbs
  | _ => if z < y then (0x8000_0000, fInvalid) else (if x < y then b else if z < x then c else a, 0)

/-- The value of a float micro-operation (R138, R140, R141). -/
def fltOp (op wf a b c : Nat) : Nat × FFlags :=
  match op with
  | 0x04 => fpAdd wf a b .rne
  | 0x05 => fpSub wf a b .rne
  | 0x06 => fpMul wf a b .rne
  | 0x07 => fpFma wf a b c .rne
  | 0x08 => fpDiv wf a b .rne
  | 0x09 => fpSqrt wf a .rne
  | 0x0A => fpTrans 0 wf a
  | 0x0B => fpTrans 1 wf a
  | 0x0C => fpTrans 2 wf a
  | 0x0D => fpTrans 3 wf a
  | 0x0E => let (r, f, _) := fpMinMax false wf a b; (r, f)
  | 0x0F => let (r, f, _) := fpMinMax true wf a b; (r, f)
  | 0x10 => fpAbs wf a
  | _ => let (r, f, _) := fpClamp wf a b c; (r, f)

/-- The tangent of a float micro-operation whose value is `y` (R126). -/
def tanOp (op wf a b c a' b' c' y : Nat) : Nat × FFlags :=
  let fma := fun p q r => fpFma wf p q r .rne
  let mul := fun p q => fpMul wf p q .rne
  let on := fun (r : Nat × FFlags) (f : Nat → Nat × FFlags) => let (v, g) := f r.1; (v, r.2 ||| g)
  let one := encFin wf false 1 0
  match op with
  | 0x04 => fpAdd wf a' b' .rne
  | 0x05 => fpSub wf a' b' .rne
  | 0x06 => on (mul a' b) (fma a b')
  | 0x07 => on (fma a' b c') (fma a b')
  | 0x08 => on (fma (fpNeg wf y) b' a') (fun t => fpDiv wf t b .rne)
  | 0x09 => on (fpAdd wf y y .rne) (fun t => fpDiv wf a' t .rne)
  | 0x0A => mul y a'
  | 0x0B => fpDiv wf a' a .rne
  | 0x0C => on (fma (fpNeg wf y) y one) (fun t => mul t a')
  | 0x0D => on (fma (fpNeg wf y) y y) (fun t => mul t a')
  | 0x0E | 0x0F =>
    let (_, _, first) := fpMinMax (op == 0x0F) wf a b
    if (decFloat wf a).isNan && (decFloat wf b).isNan then (canonNan wf, 0)
    else if first then passElem wf a' else passElem wf b'
  | 0x10 => passElem wf (if bitOf a (fmtWidth wf - 1) then fpNeg wf a' else a')
  | _ =>
    let (r, _, self) := fpClamp wf a b c
    if (decFloat wf r).isNan then (canonNan wf, 0) else if self then passElem wf a' else (0, 0)

/-- RND of one element: converted to CFMT, then widened back (R142). -/
def rndElem (wf c a : Nat) (sel : Sel) : Nat × FFlags :=
  let (r, f) := convertElem wf c a sel
  let (v, g) := convertElem c wf r .rne
  (v, f ||| g)

/-- The immediate of BCAST (R142). -/
def bcastValue (wf : Nat) (u : Uop) : Nat × FFlags :=
  if wf = 9 then (bitsOf u 0 32, 0) else convertElem 1 wf (bitsOf u 0 32) .rne

-- Summaries (R152 to R154).

/-- What a summary micro-operation has gathered so far: lane partials, the exact integer sum, the extreme element, the
count, whether a NaN was seen, and the first index. -/
structure SumAcc where
  parts : Tab Nat
  int : Int
  ext : Option Nat
  count : Nat
  nan : Bool
  first : Option Nat

/-- Nothing gathered. -/
def SumAcc.empty : SumAcc := { parts := [], int := 0, ext := none, count := 0, nan := false, first := none }

/-- One live, predicated lane enters a summary: `e` is its element index, `a` its bits (R153, R154). -/
def sumLane (op wf l e a : Nat) (s : SumAcc) : SumAcc × FFlags :=
  match op with
  | 0x20 =>
    if wf = 9 then ({ s with int := s.int + sInt 32 a }, 0)
    else
      let (x, f) := convertElem wf 0 a .rne
      let (p, g) := fpAdd 0 (s.parts.get 0 l) x .rne
      ({ s with parts := s.parts.set l p }, f ||| g)
  | 0x21 | 0x22 =>
    let better := match s.ext with
      | none => true
      | some b =>
        if wf = 9 then if op = 0x21 then decide (sInt 32 a < sInt 32 b) else decide (sInt 32 b < sInt 32 a)
        else
          let x := (readElem wf a).1
          let y := (readElem wf b).1
          if op = 0x21 then Num.ltZ x y else Num.ltZ y x
    if wf = 9 then (if better then { s with ext := some a } else s, 0)
    else
      let (x, f) := readElem wf a
      if x.isNan then (s, f ||| fNanIn) else (if better then { s with ext := some (canonElem wf a) } else s, f)
  | 0x23 => ({ s with count := s.count + 1 }, 0)
  | 0x24 => ({ s with nan := s.nan || (decFloat wf a).isNan }, passFlags wf a)
  | _ => ({ s with first := some (match s.first with | some f => min f e | none => e) }, 0)

/-- The balanced pairwise tree over FP64 values (R84, R154). -/
def tree64 : Nat → List Nat → Nat × FFlags
  | 0, l => (l.headD 0, 0)
  | d + 1, l =>
    let rec pairs : List Nat → List Nat × FFlags
      | a :: b :: r =>
        let (v, f) := fpAdd 0 a b .rne
        let (vs, g) := pairs r
        (v :: vs, f ||| g)
      | l => (l, 0)
    let (vs, f) := pairs l
    let (v, g) := tree64 d vs
    (v, f ||| g)

/-- The value of a finished summary (R153, R154). -/
def sumValue (op wf : Nat) (s : SumAcc) : Nat × FFlags :=
  match op with
  | 0x20 =>
    if wf = 9 then (uBits 64 s.int, 0)
    else tree64 (Nat.log2 (lanesOf wf)) ((List.range (lanesOf wf)).map (s.parts.get 0))
  | 0x21 | 0x22 => match s.ext with
    | none => (if wf = 9 then 0x8000_0000_0000_0000 else canonNan 0, 0)
    | some a => if wf = 9 then (uBits 64 (sInt 32 a), 0) else convertElem wf 0 a .rne
  | 0x23 => (s.count, 0)
  | 0x24 => (b2n s.nan, 0)
  | _ => (s.first.getD 0xFFFF_FFFF_FFFF_FFFF, 0)

/-- KIND of a summary micro-operation (R164). -/
def sumKind (op : Nat) : Nat := op - 0x1F

-- A run.

/-- A run in progress: the body, the flags, the summaries by slot, the position of the micro-operation whose access met a
lost bank (R149), and that of the first ST that lost a collision (R224). -/
structure VxRun where
  b : Body
  flags : FFlags
  sums : Tab SumAcc
  lost : Option Nat
  hit : Option Nat

/-- What a run does not change: the site, its instruction, form, working format, streams, element count. -/
structure VxCtx where
  e : Env
  s : Nat
  q : QEntry
  wf : Nat
  dual : Bool
  streams : List TDesc
  n : Nat

/-- Stream `i` of a run. -/
def VxCtx.stream (c : VxCtx) (i : Nat) : TDesc := c.streams.getD i (TDesc.ofNat 0)

/-- Slice coordinates of element `e` in a stream (R144). -/
def TDesc.place (t : TDesc) (e : Nat) : Nat × Nat := (e % (t.rows * t.cols) / t.cols, e % (t.rows * t.cols) % t.cols)

/-- The engine changed. -/
def VxRun.modVx (r : VxRun) (s : Nat) (f : VxSt → VxSt) : VxRun :=
  { r with b := r.b.modSite s fun t => { t with vx := f t.vx } }

/-- The engine of a run's site. -/
def VxRun.vx (r : VxRun) (s : Nat) : VxSt := (r.b.site s).vx

/-- The live lanes of a strip (R139). -/
def VxCtx.live (c : VxCtx) (strip : Nat) : List Nat :=
  let lanes := lanesOf c.wf
  List.range (min lanes (c.n - strip * lanes))

/-- A destination register over the live lanes: `f` gives the new bits and flags of predicated lanes, the others follow
MZ (R137, R139). -/
def writeLanes (c : VxCtx) (live : List Nat) (pred : Nat → Bool) (mz : Bool) (rd : Nat) (f : Nat → Nat × FFlags)
    (r : VxRun) : VxRun :=
  let (x, fl) := live.foldl (fun ((x, fl) : VxSt × FFlags) l =>
    if pred l then let (v, g) := f l; (x.setLane c.wf rd l v, fl ||| g)
    else (if mz then x.setLane c.wf rd l 0 else x, fl)) (r.vx c.s, r.flags)
  { (r.modVx c.s fun _ => x) with flags := fl }

/-- The bytes that an LD or ST accesses in a strip. -/
def laneRanges (c : VxCtx) (t : TDesc) (strip : Nat) (ls : List Nat) : List Range :=
  let w := fmtWidth t.fmt
  ls.flatMap fun l =>
    let (i, j) := t.place (strip * lanesOf c.wf + l)
    [(t.addr + i * t.rstride + j * w / 8, cdiv (j * w % 8 + w) 8)] ++
    (if t.scale = 0 then [] else [(t.saddr + i * (t.cols / blockSize t.scale) + j / blockSize t.scale, 1)]) ++
    (if c.dual && t.dual then [(t.taddr + i * t.tstride + j * (fmtWidth t.tfmt / 8), fmtWidth t.tfmt / 8)] else [])

/-- An element as LD reads it (R59, R63, R146). -/
def loadElem (c : VxCtx) (t : TDesc) (m : Mem) (i j : Nat) : Nat × FFlags :=
  if isScaled t.fmt t.scale t.coarse then
    let (x, f) := t.elemV m (siteBase c.s) i j
    let (v, g) := convert c.wf x .rne
    (v, f ||| g)
  else convertElem t.fmt c.wf (t.elemBits m (siteBase c.s) i j) .rne

/-- LD (R125, R139, R146, R151). -/
def uopLd (c : VxCtx) (u : Uop) (strip : Nat) (live : List Nat) (pred : Nat → Bool) (r : VxRun) : VxRun :=
  let t := c.stream u.str
  let (m, b) := sramView c.e c.s (laneRanges c t strip (live.filter pred)) r.b
  let at_ := fun l => t.place (strip * lanesOf c.wf + l)
  let r := writeLanes c live pred u.mz u.vd (fun l => let (i, j) := at_ l; loadElem c t m i j) { r with b := b }
  if c.dual then
    writeLanes c live pred u.mz (u.vd + 1) (fun l =>
      let (i, j) := at_ l
      let a := m.num (siteBase c.s + t.taddr + i * t.tstride + j * (fmtWidth t.tfmt / 8)) (fmtWidth t.tfmt / 8)
      if !t.dual then (0, 0) else if t.tfmt = c.wf then (a, 0) else convertElem t.tfmt c.wf a .rne) r
  else r

/-- A write of the run by the micro-operation at a position (R224). -/
def VxRun.write (c : VxCtx) (pos : Nat) (a n : Nat) (m : Mem) (r : VxRun) : VxRun :=
  let (hit, b) := unitWrite c.e 3 c.s (a, n) m r.b
  { r with b := b, hit := if hit && r.hit.isNone then some pos else r.hit }

/-- ST of one lane: quantised under the block's scale, converted once, digested (R64, R146, R125, R426). -/
def storeLane (c : VxCtx) (u : Uop) (pos : Nat) (t : TDesc) (strip : Nat) (ls dv dt : List Nat) (l : Nat) (r : VxRun) : VxRun :=
  let e := strip * lanesOf c.wf + l
  let (i, j) := t.place e
  let k := blockSize t.scale
  let x := r.vx c.s
  let val := fun l => readElem c.wf (x.lane c.wf u.va l)
  let sb := if t.scale = 0 then 0
    else blockScale t.fmt t.scale t.coarse ((ls.filter fun l' => l' / k == l / k).map fun l' => (val l').1)
  let idx := t.index i j
  let (y, f) := if c.wf = 9 then (Num.ofInt (sInt 32 (x.lane c.wf u.va l)), 0) else val l
  let (v, g) := quantise t.fmt t.scale t.coarse sb y (elemSel (u.sr c.q) c.q.key.toNat 1 t.tid idx 0 t.step)
  let w := fmtWidth t.fmt
  let r := r.write c pos (t.addr + i * t.rstride + j * w / 8) (cdiv (j * w % 8 + w) 8) (t.putElem r.b.mem (siteBase c.s) i j v)
  let r := if t.scale = 0 then r
    else r.write c pos (t.saddr + i * (t.cols / k) + j / k) 1 (t.putScale r.b.mem (siteBase c.s) i j sb)
  let r := { r with b := digElem dv t.tid 0 t.fmt t.step idx v r.b, flags := r.flags ||| f ||| g }
  if c.dual && t.dual then
    let a := x.lane c.wf (u.va + 1) l
    let wt := fmtWidth t.tfmt / 8
    let (v', g') := convertElem c.wf t.tfmt a
      (if t.tfmt = c.wf then .rne else elemSel (u.sr c.q) c.q.key.toNat 1 t.tanId idx 0 t.step)
    let r := r.write c pos (t.taddr + i * t.tstride + j * wt) wt (t.putTangent r.b.mem (siteBase c.s) i j v')
    { r with b := digElem dt t.tanId 0 t.tfmt t.step idx v' r.b, flags := r.flags ||| g' }
  else r

/-- ST (R139, R146): only predicated live lanes are written. -/
def uopSt (c : VxCtx) (u : Uop) (pos strip : Nat) (live : List Nat) (pred : Nat → Bool) (r : VxRun) : VxRun :=
  let t := c.stream u.str
  let ls := live.filter pred
  let dv := digSlots r.b t.tid 0
  let dt := digSlots r.b t.tanId 0
  ls.foldl (fun r l => storeLane c u pos t strip ls dv dt l r) r

/-- A compare or mask operation over the live lanes (R138, R139, R141). -/
def writeMask (c : VxCtx) (live : List Nat) (kd : Nat) (f : Nat → Bool × FFlags) (r : VxRun) : VxRun :=
  let (x, fl) := live.foldl (fun ((x, fl) : VxSt × FFlags) l => let (v, g) := f l; (x.setMask kd l v, fl ||| g)) (r.vx c.s, r.flags)
  { (r.modVx c.s fun _ => x) with flags := fl }

/-- A compare of two elements: CMPLT, CMPLE, CMPEQ (R141). -/
def cmpElem (op wf a b : Nat) : Bool × FFlags :=
  if wf = 9 then
    (match op with
      | 0x13 => decide (sInt 32 a < sInt 32 b)
      | 0x14 => decide (sInt 32 a ≤ sInt 32 b)
      | _ => decide (sInt 32 a = sInt 32 b), 0)
  else fpCompare (match op with | 0x13 => 1 | 0x14 => 2 | _ => 0) wf a b

/-- A summary micro-operation over a strip (R153). -/
def uopSum (c : VxCtx) (u : Uop) (strip : Nat) (ls : List Nat) (r : VxRun) : VxRun :=
  let x := r.vx c.s
  let (a, fl) := ls.foldl (fun ((a, fl) : SumAcc × FFlags) l =>
    let (a, g) := sumLane u.op c.wf l (strip * lanesOf c.wf + l) (x.lane c.wf u.va l) a
    (a, fl ||| g)) (r.sums.get SumAcc.empty u.sslot, r.flags)
  { r with sums := r.sums.set u.sslot a, flags := fl }

/-- One micro-operation on a strip (R138 to R142, R151); `pos` is its position in the program. -/
def uopExec (c : VxCtx) (u : Uop) (pos strip : Nat) (live : List Nat) (r : VxRun) : VxRun :=
  let x := r.vx c.s
  let pred := fun l => x.maskBit u.kp l
  let lane := fun v l => x.lane c.wf v l
  let write := writeLanes c live pred u.mz
  let pass := fun a => if c.wf = 9 then (a, 0) else passElem c.wf a
  let pair := fun (f : Nat → Nat → Nat × FFlags) (r : VxRun) =>
    let r := write u.vd (f 0) r
    if c.dual then write (u.vd + 1) (f 1) r else r
  match u.op with
  | 0x00 => uopLd c u strip live pred r
  | 0x01 => uopSt c u pos strip live pred r
  | 0x02 => pair (fun h _ => if h = 0 then bcastValue c.wf u else (0, 0)) r
  | 0x03 => pair (fun h l => pass (lane (u.va + h) l)) r
  | 0x12 => pair (fun h l => pass (lane ((if x.maskBit u.kd l then u.va else u.vb) + h) l)) r
  | 0x13 | 0x14 | 0x15 =>
    writeMask c live u.kd (fun l => if pred l then cmpElem u.op c.wf (lane u.va l) (lane u.vb l) else (false, 0)) r
  | 0x16 => writeMask c live u.kd (fun l =>
      if pred l then ((decFloat c.wf (lane u.va l)).isNan, passFlags c.wf (lane u.va l)) else (false, 0)) r
  | 0x17 =>
    let t := c.stream u.str
    pair (fun h l =>
      if h = 0 then
        let (i, j) := t.place (strip * lanesOf c.wf + l)
        rndElem c.wf u.cfmt (lane u.va l) (elemSel (u.sr c.q) c.q.key.toNat 2 t.tid (t.index i j) pos t.step)
      else pass (lane (u.va + 1) l)) r
  | 0x18 => writeMask c live u.kd (fun l => (pred l && x.maskBit (u.va % 8) l, 0)) r
  | 0x19 => writeMask c live u.kd (fun l => (pred l || x.maskBit (u.va % 8) l, 0)) r
  | 0x1A => writeMask c live u.kd (fun l => (!pred l, 0)) r
  | _ =>
    if u.sums then uopSum c u strip (live.filter pred) r
    else pair (fun h l =>
      if h = 0 then
        if c.wf = 9 then intOp u.op (lane u.va l) (lane u.vb l) (lane u.vc l)
        else fltOp u.op c.wf (lane u.va l) (lane u.vb l) (lane u.vc l)
      else
        let y := (fltOp u.op c.wf (lane u.va l) (lane u.vb l) (lane u.vc l)).1
        tanOp u.op c.wf (lane u.va l) (lane u.vb l) (lane u.vc l) (lane (u.va + 1) l) (lane (u.vb + 1) l)
          (lane (u.vc + 1) l) y) r

/-- One micro-operation, unless the run has ended, it is a later strip's ONCE, or its access meets a bank that was
handed away (R149). -/
def uopStep (c : VxCtx) (u : Uop) (pos strip : Nat) (live : List Nat) (r : VxRun) : VxRun :=
  if r.lost.isSome || (u.once && strip != 0) then r
  else
    let ls := live.filter fun l => (r.vx c.s).maskBit u.kp l
    if u.op ≤ 1 && !(r.b.site c.s).ownsAll 3 (laneRanges c (c.stream u.str) strip ls) then { r with lost := some pos }
    else uopExec c u pos strip live r

/-- One strip (R139, R147): k0 holds the live lanes, then every micro-operation in order. R139 lets the mask bits of a lane
that is not live keep their contents; of the bits of k0 at L and above it does not say what the write at the strip's start
does: the model keeps them (log entry 68). -/
def stripExec (c : VxCtx) (us : List Uop) (strip : Nat) (r : VxRun) : VxRun :=
  if r.lost.isSome then r
  else
    let live := c.live strip
    let k0 := putBits ((r.vx c.s).k.get 0 0) 0 (lanesOf c.wf) (2 ^ live.length - 1)
    let r := r.modVx c.s fun x => { x with k := x.k.set 0 k0 }
    let r := us.zipIdx.foldl (fun r (u, pos) => uopStep c u pos strip live r) r
    if r.lost.isSome then r else r.modVx c.s fun x => { x with strips := x.strips + 1 }

/-- The whole of a run's strips. -/
def runStrips (c : VxCtx) (us : List Uop) (b : Body) : VxRun :=
  foldN (cdiv c.n (lanesOf c.wf)) (stripExec c us) { b := b, flags := 0, sums := [], lost := none, hit := none }

/-- The summary slots that a program names, with the micro-operation's OP. -/
def sumSlots (us : List Uop) : List (Nat × Nat) := (us.filter Uop.sums).map fun u => (u.sslot, u.op)

/-- The summaries of a completed run written to their slots (R152, R153). -/
def finishSums (c : VxCtx) (us : List Uop) (r : VxRun) : VxRun :=
  (sumSlots us).foldl (fun r (slot, op) =>
    let (v, f) := sumValue op c.wf (r.sums.get SumAcc.empty slot)
    { (r.modVx c.s fun x => { x with sums := x.sums.set slot { value := BitVec.ofNat 64 v, kind := sumKind op, valid := true } }) with
      flags := r.flags ||| f }) r

-- The state image (R157).

/-- VX_SUMINFO (R164). -/
def VxSt.sumInfo (x : VxSt) : Nat :=
  foldN 8 (fun n w =>
    let s := x.sums.get { value := 0, kind := 0, valid := false } n
    w + (s.kind + 16 * b2n s.valid) * 256 ^ n) 0

/-- Bytes of the image. -/
def vxImageBytes : Nat := 21120

/-- The image as sparse bytes from 0. -/
def vxImage (x : VxSt) : Mem :=
  let m := (Mem.setNum [] 0 4 0x5658_0001).setNum 72 8 x.sumInfo
  let m := foldN 8 (fun n m =>
    ((m.setNum (8 + 8 * n) 8 (x.header n)).setNum (16640 + 32 * n) 32 (x.k.get 0 n)).setNum (16896 + 8 * n) 8
      (x.sums.get { value := 0, kind := 0, valid := false } n).value.toNat) m
  let m := foldN 32 (fun n m => m.setNum (256 + 512 * n) 512 (x.v.get 0 n)) m
  foldN 512 (fun n m => m.setNum (17024 + 8 * n) 8 (x.prog.get 0 n).toNat) m

/-- An image that VX.FILL accepts. -/
def vxImageOk (img : Mem) : Bool :=
  let zero := fun a n => img.all fun c => c.1 < a || a + n ≤ c.1
  img.num 0 4 == 0x5658_0001 && zero 4 4 && zero 80 176 && zero 16960 64

/-- The engine restored from an image. -/
def vxRestore (img : Mem) (x : VxSt) : VxSt :=
  let info := img.num 72 8
  { x with
    v := (List.range 32).map fun n => (n, img.num (256 + 512 * n) 512)
    k := (List.range 8).map fun n => (n, img.num (16640 + 32 * n) 32)
    hdr := (List.range 8).map fun n => (n, BitVec.ofNat 64 (img.num (8 + 8 * n) 8))
    prog := (List.range 512).map fun n => (n, BitVec.ofNat 64 (img.num (17024 + 8 * n) 8))
    sums := (List.range 8).map fun n =>
      (n, { value := BitVec.ofNat 64 (img.num (16896 + 8 * n) 8), kind := bitsOf info (8 * n) 4, valid := bitOf info (8 * n + 4) }) }

end Sys2Proof.Machine
end

