-- ==== Sys2Proof/Machine/Vx.lean ====
section
/-! DEFINITION. The vector engine's rows (R128 to R165). -/
namespace Sys2Proof.Machine

/-- The engine of a site changed. -/
def Body.modVx (b : Body) (s : Nat) (f : VxSt → VxSt) : Body := b.modSite s fun t => { t with vx := f t.vx }

/-- The head ends with a status; `u` is the position of the micro-operation at fault (R163). -/
def VxSt.ends (x : VxSt) (st u : Nat) : VxSt := { x with eng := x.eng.ends st, uop := u }

/-- The stream table of the head as a range. -/
def vxTable (x : VxSt) (q : QEntry) : Range := (q.a.toNat, 64 * (vxDescs x q).length)

/-- Can the engine read the descriptors of its head: well formed, aligned, in its own banks (R149, R511)? -/
def vxReadable (t : Site) (q : QEntry) : Bool :=
  vxEncodingOk q && q.a.toNat % 64 == 0 && t.ownsAll 3 [vxTable t.vx q]

/-- The descriptors of the head as captured, or as they stand in memory; none where they cannot be read yet. -/
def vxPeek (b : Body) (s : Nat) (q : QEntry) : List Nat :=
  let t := b.site s
  t.vx.eng.cap.getD (if vxReadable t q && !wakingIn t (vxTable t.vx q) then (vxDescs t.vx q).map (descAt b.mem s) else [])

/-- VX_STAT.KWAIT: the head run waits on a kickoff (R133, R161). -/
def vxKwait (e : Env) (b : Body) (s : Nat) : Bool :=
  let x := (b.site s).vx.eng
  match x.head with
  | none => false
  | some q => !x.launched && !(kickoffsOf (vxPeek b s q)).all (kickDue e.now)

/-- The status with which the launch checks of the head end, `ds` being its stream descriptors; 0 lets it execute (R132,
R157, R512). What VX.PLOAD and VX.FILL read is checked as it is read. -/
def vxStatus (t : Site) (ds : List Nat) (q : QEntry) : Nat :=
  if !vxEncodingOk q then mxEncoding
  else match q.mxFunc with
    | 0 => vxRunStatus t ds q
    | 1 => if q.a.toNat % 8 != 0 then mxShape else if !t.ownsAll 3 [(q.a.toNat, 8)] then mxBank else mxOk
    | _ => if q.a.toNat % 64 != 0 then mxShape else if !t.ownsAll 3 [(q.a.toNat, vxImageBytes)] then mxBank else mxOk

/-- The descriptors of the head, read once, when it reaches the head (R143; log entry 66). -/
def vxCapture (e : Env) (s : Nat) (q : QEntry) (b : Body) : List Nat × Body :=
  if (b.site s).vx.eng.cap.isNone && !vxReadable (b.site s) q then ([], b)
  else
    let (ds, b) := captureHead e s (vxDescs (b.site s).vx q) (b.site s).vx.eng b
    (ds, b.modVx s fun x => { x with eng := { x.eng with cap := some ds } })

/-- The head launches, or ends with the status of its checks, once every kickoff of its streams is due (R133, R145); it waits
while a bank of its stream table wakes (R225). -/
def vxBegin (s : Nat) (e : Env) (q : QEntry) (b : Body) : Body :=
  let x := (b.site s).vx
  if x.eng.launched || (x.eng.cap.isNone && vxReadable (b.site s) q && wakingIn (b.site s) (vxTable x q)) then b
  else
    let (ds, b) := vxCapture e s q b
    if !(kickoffsOf ds).all (kickDue e.now) then b
    else
      let st := vxStatus (b.site s) ds q
      (b.launchAll e (kickoffsOf ds)).modVx s fun x =>
        if st = mxOk then { x with eng := { x.eng with launched := true } } else x.ends st 0

/-- VX_KICKOFF_LAUNCH (R133): a head run that carries a kickoff launches when every kickoff of its streams is due. -/
def vxLaunch (s : Nat) (e : Env) (b : Body) : Body :=
  match (b.site s).vx.eng.head with
  | none => b
  | some q => if 408 ≤ s || kickoffsOf (vxPeek b s q) = [] then b else vxBegin s e q b

/-- VX_KICKOFF_LAUNCH. -/
def execVxKickoffLaunch (site : Nat) (s : State) : Host.Outcome State Fault Refusal := bodyStep (vxLaunch site) s

/-- The ECC check of the register file and the program store (R156): was the error uncorrectable? -/
def vxCheck (e : Env) (s : Nat) (b : Body) : Bool × Body :=
  match check (detOf 3 s) 0 b with
  | (some 1, b) => (false, recordErr e { kind := 4, sev := 0, inj := true, det := detOf 3 s, site := s } b)
  | (some _, b) => (true, recordErr e { kind := 5, sev := 1, inj := true, det := detOf 3 s, site := s } b)
  | (none, b) => (false, b)

/-- LEN of a program image at an address, 0 where R136 refuses it. -/
def imageLen (h : Nat) : Nat := if hdrLen h ≤ 64 then hdrLen h else 0

/-- The bytes of SRAM that an executing head may access, for the wait of R225. -/
def vxUses (b : Body) (s : Nat) (ds : List Nat) (q : QEntry) : List Range :=
  match q.mxFunc with
  | 0 => ds.zipIdx.flatMap fun (d, i) =>
    let u := strUse ((b.site s).vx.program q.vxSlot) q i
    if u.ld || u.st then (TDesc.ofNat d).runRanges q.b.toNat q.vxDual else []
  | 1 => [(q.a.toNat, 8 * (imageLen (b.mem.num (siteBase s + q.a.toNat) 8) + 1))]
  | _ => [(q.a.toNat, vxImageBytes)]

/-- The head executes: it launches first unless it has; then the banks that it accesses, one of which may wake (R225); then
the register file's ECC where it is read (R156); then the function itself. -/
def vxExec (func s : Nat) (f : Env → QEntry → List Nat → Body → Body) (e : Env) (b : Body) : Body :=
  match (b.site s).vx.eng.head with
  | none => b
  | some q =>
    if 408 ≤ s || q.mxFunc != func then b
    else
      let b := vxBegin s e q b
      let x := (b.site s).vx.eng
      if !x.launched then b
      else
        let ds := x.cap.getD []
        if (b.site s).wakingAny (vxUses b s ds q) then b
        else
          let (ue, b) := if func = 0 || func = 2 then vxCheck e s b else (false, b)
          if ue then b.modVx s fun x => x.ends vxRegUe 0 else f e q ds b

/-- The digested writes of a run: tensor id, sub, first index and count of each row's elements (R426, R427). -/
def vxStoreRuns (c : VxCtx) (us : List Uop) : List (Nat × Nat × Nat × Nat) :=
  (us.filter (·.op == 1)).flatMap fun u =>
    let t := c.stream u.str
    let k := t.runElems c.n
    (List.range (if t.cols = 0 then 0 else cdiv k t.cols)).flatMap fun i =>
      let n := min t.cols (k - i * t.cols)
      (t.tid, 0, t.index i 0, n) :: if c.dual && t.dual then [(t.tanId, 0, t.index i 0, n)] else []

/-- The context of the head run. -/
def vxCtx (e : Env) (s : Nat) (q : QEntry) (ds : List Nat) (b : Body) : VxCtx :=
  { e := e, s := s, q := q, wf := hdrFmt ((b.site s).vx.header q.vxSlot), dual := q.vxDual, streams := ds.map TDesc.ofNat,
    n := q.b.toNat }

/-- VX_RUN (R139 to R154). -/
def vxRun (s : Nat) : Env → Body → Body :=
  vxExec 0 s fun e q ds b =>
    let us := (b.site s).vx.program q.vxSlot
    let c := vxCtx e s q ds b
    if digWaits b (vxStoreRuns c us) then b
    else
      let r := runStrips c us b
      match r.lost with
      | some pos => r.b.modVx s fun x =>
          let y := (sumSlots us).foldl (fun (x : VxSt) (slot, _) =>
            let z := x.sums.get { value := 0, kind := 0, valid := false } slot
            { x with sums := x.sums.set slot { z with valid := false } }) x
          { y with eng.flags := y.eng.flags ||| r.flags }.ends mxBank pos
      | none =>
        let r := finishSums c us r
        r.b.modVx s fun x =>
          { x with eng.flags := x.eng.flags ||| r.flags }.ends (if r.hit.isSome then mxCollide else mxOk) (r.hit.getD 0)

/-- VX_RUN. -/
def execVxRun (site : Nat) (s : State) (clash : List Nat := []) : Host.Outcome State Fault Refusal := clashStep clash (vxRun site) s

/-- VX_PLOAD (R134, R136): the header and the first LEN words of the slot, once their banks (step 3 of R512) and the
program (step 5) have passed. -/
def vxPload (s : Nat) : Env → Body → Body :=
  vxExec 1 s fun e q _ b =>
    let a := siteBase s + q.a.toNat
    let (m, b) := sramView e s [(q.a.toNat, 8)] b
    let h := m.num a 8
    let words : List Range := [(q.a.toNat + 8, 8 * imageLen h)]
    if !(b.site s).ownsAll 3 words then b.modVx s fun x => x.ends mxBank 0
    else
    let (m, b) := sramView e s words b
    if !progOk h ((List.range (imageLen h)).map fun u => m.num (a + 8 + 8 * u) 8) then b.modVx s fun x => x.ends vxProg 0
    else b.modVx s fun x =>
      { x with hdr := x.hdr.set q.vxSlot (BitVec.ofNat 64 h)
               prog := foldN (hdrLen h) (fun u p => p.set (q.vxSlot * 64 + u) (BitVec.ofNat 64 (m.num (a + 8 + 8 * u) 8))) x.prog }.ends mxOk 0

/-- VX_PLOAD. -/
def execVxPload (site : Nat) (s : State) : Host.Outcome State Fault Refusal := bodyStep (vxPload site) s

/-- VX_SPILL (R157). -/
def vxSpill (s : Nat) : Env → Body → Body :=
  vxExec 2 s fun e q _ b =>
    let (hit, b) := unitWrite e 3 s (q.a.toNat, vxImageBytes)
      (b.mem.paste (siteBase s + q.a.toNat) vxImageBytes (vxImage (b.site s).vx)) b
    b.modVx s fun x => x.ends (if hit then mxCollide else mxOk) 0

/-- VX_SPILL. -/
def execVxSpill (site : Nat) (s : State) (clash : List Nat := []) : Host.Outcome State Fault Refusal :=
  clashStep clash (vxSpill site) s

/-- VX_FILL (R157). -/
def vxFill (s : Nat) : Env → Body → Body :=
  vxExec 3 s fun e q _ b =>
    let (m, b) := sramView e s [(q.a.toNat, vxImageBytes)] b
    let img := m.slice (siteBase s + q.a.toNat) vxImageBytes
    b.modVx s fun x => if vxImageOk img then (vxRestore img x).ends mxOk 0 else x.ends mxFillBad 0

/-- VX_FILL. -/
def execVxFill (site : Nat) (s : State) : Host.Outcome State Fault Refusal := bodyStep (vxFill site) s

/-- A vector instruction completes with a status: its counter, LAST_STATUS, and for a failing status the halt, VX_ERR
and EPEND (R156, R163, R193). -/
def vxFinish (e : Env) (s : Nat) (q : QEntry) (st u : Nat) (b : Body) : Body :=
  let b := (b.advanceCc s q.mxCc).modVx s fun x => { x with eng := { x.eng with last := st } }
  if st = mxOk || st = mxFlushed then b
  else haltEngine e s 1 (b.modVx s fun x =>
    { x with eng := { (x.eng.record (BitVec.ofNat 64 (2 ^ 63 + st * 2 ^ 40 + u * 2 ^ 32 + q.word.toNat))) with halted := true } })

/-- VX_COMPLETE (R156): the ended head completes; a reserved FUNC ends with REJ_ENCODING. -/
def vxComplete (s : Nat) (e : Env) (b : Body) : Body :=
  let x := (b.site s).vx
  match x.eng.q with
  | [] => b
  | q :: _ =>
    let st := match x.eng.done with
      | some st => some (st, x.uop)
      | none => if !x.eng.halted && 4 ≤ q.mxFunc then some (mxEncoding, 0) else none
    match st with
    | none => b
    | some (st, u) => if 408 ≤ s then b else
      retryIssue e s (vxFinish e s q st u (b.modVx s fun x => { x with eng := x.eng.pop, uop := 0 }))

/-- VX_COMPLETE. -/
def execVxComplete (site : Nat) (s : State) : Host.Outcome State Fault Refusal := bodyStep (vxComplete site) s

/-- VX_FLUSH (R156, R160). -/
def vxFlush (s : Nat) (e : Env) (b : Body) : Body :=
  let b := overList (b.site s).vx.eng.q (fun q b => vxFinish e s q mxFlushed 0 b) b
  retryIssue e s (b.modVx s fun x =>
    { x with uop := 0, eng := { x.eng with q := [], launched := false, done := none, cap := none, halted := false } })

/-- VX_FLUSH. -/
def execVxFlush (ag : Agent) (site : Nat) (s : State) : Host.Outcome State Fault Refusal :=
  bodyStep (fun e b => atSite site b (guarded e ag (oTl site 0x2000) b (vxFlush site e b))) s

/-- VX_RESUME (R160). -/
def execVxResume (ag : Agent) (site : Nat) (s : State) : Host.Outcome State Fault Refusal :=
  bodyStep (fun e b => atSite site b (guarded e ag (oTl site 0x2000) b
    (b.modVx site fun x => { x with eng := { x.eng with halted := false } }))) s

end Sys2Proof.Machine
end

