-- ==== Sys2Proof/Machine/MpOps.lean ====
section
/-! DEFINITION. What the management processor's rows share: messages (R431 to R433), the referee's view (R448 to R452),
retirement (R279), whistles (R451 to R454, R456), and agreement sweeps (R461). -/
namespace Sys2Proof.Machine

-- Messages (R431 to R433).

/-- The key of the job: MP_WKEY (R432). -/
def mpKey (b : Body) : List Byte := (List.range 4).flatMap fun n => leBytes (b.csr (oMpWkey n)) 8

/-- ROLE: the referee rank of this device, 3 for none (R467). -/
def mpRole (b : Body) : Nat := b.field oMpRef 8 2

/-- The rank of the acting referee. -/
def mpActing (b : Body) : Nat := b.field oMpRef 24 2

/-- TERM as held. -/
def mpTerm (b : Body) : Nat := b.field oMpRef 32 16

/-- The coordinate of a referee rank: MP_REF_COORD. -/
def refCoord (b : Body) (r : Nat) : Nat := b.field oMpRefCoord (16 * r) 16

/-- Is this device the acting referee? -/
def isActing (b : Body) : Bool := mpRole b != 3 && mpRole b == mpActing b

/-- The distinct coordinates of the three referees. -/
def referees (b : Body) : List Nat := ([0, 1, 2].map (refCoord b)).eraseDups

/-- Little-endian bytes of a message. -/
def Msg.num (m : Msg) (at_ n : Nat) : Nat := ofBytes ((m.bytes.drop at_).take n)

/-- The 128 bytes of a message that this device sends: header, body fields at their offsets, and the HMAC (R432). -/
def mpMessage (e : Env) (b : Body) (mtype : Nat) (fields : List (Nat × List Byte)) : List Byte :=
  let head := leBytes mtype 1 ++ [1#8] ++ leBytes b.coord 2 ++ leBytes e.fuse.serial.toNat 8 ++ leBytes (mpTerm b) 2 ++
    leBytes (if mpRole b = 3 then 0xFF else mpRole b) 1 ++ [0#8]
  let l := fields.foldl (fun l f => putBytes l f.1 f.2) (head ++ List.replicate 80 0#8)
  l ++ hmac256 (mpKey b) l

/-- Is a received message one of this system: version, MTYPE, HMAC (R433)? -/
def msgGood (b : Body) (l : List Byte) : Bool :=
  l.length == 128 && l.getD 1 0#8 == 1#8 && 1 ≤ (l.getD 0 0#8).toNat && (l.getD 0 0#8).toNat ≤ 7 &&
    l.drop 96 == hmac256 (mpKey b) (l.take 96)

/-- A message at the queue (R433). -/
def queueMsg (m : Msg) (b : Body) : Body :=
  if msgGood b m.bytes then { b with dev.mp.queue := b.dev.mp.queue ++ [m] } else b.bumpSat oMpStat 48 16

/-- The header of a management frame (R431). -/
def mpFrameHead (b : Body) (dst : Nat) : OpHdr := { plainHead b 1 dst 128 with rtile := 0x1FF }

/-- A message goes to a device; one to this device enters its own queue. -/
def sendMsg (e : Env) (dst : Nat) (l : List Byte) (b : Body) : Body :=
  if dst = b.coord then
    if b.dev.mp.queue.length < 64 then queueMsg { src := dst, bytes := l } b else b
  else sendData e dst 3 false ((mpFrameHead b dst).payload l) [] b

/-- The distinct torus neighbours of a coordinate. -/
def neighboursOf (b : Body) (c : Nat) : List Nat :=
  ((List.range 4).flatMap fun a => if b.axisSize a < 2 then [] else [b.nextOn c a true, b.nextOn c a false]).eraseDups

/-- A message flooded: to every torus neighbour but those in `except` and the dead (R453). -/
def flood (e : Env) (except : List Nat) (l : List Byte) (b : Body) : Body :=
  overList ((neighboursOf b b.coord).filter fun c => !except.contains c && !b.isDead c) (fun c => sendMsg e c l) b

/-- The oldest message of an MTYPE leaves the queue. -/
def takeMsg (mtype : Nat) (b : Body) : Option (Msg × Body) :=
  match b.dev.mp.queue.find? fun m => m.num 0 1 == mtype with
  | some m => some (m, { b with dev.mp.queue := b.dev.mp.queue.erase m })
  | none => none

/-- Is a duty tier shed (R462, R467)? -/
def shed (b : Body) (t : Nat) : Bool := b.flag oMpStat (29 + t)

-- Retirement (R279, R443, R454, R509).

/-- Every core stops and every engine queue is flushed (step 2 of R279). -/
def stopAll (e : Env) (b : Body) : Body :=
  overList (List.range 408) (fun s b =>
    let b := b.modSite s fun t => { t with core := t.core.stop }
    cpFlush s e (svFlush s e (vxFlush s e (mxFlush s e b)))) b

/-- RETIRE with a cause and its stack or sensor goes to the referees (R432). -/
def sendRetire (e : Env) (cause arg : Nat) (b : Body) : Body :=
  let l := mpMessage e b 2 [(16, leBytes cause 1), (17, leBytes arg 1)]
  overList (referees b) (fun c => sendMsg e c l) b

/-- The device retires (steps 2 to 4 of R279): once. Byte 17 is the stack or the sensor, and zero where the cause has
neither (R432). -/
def retireDevice (e : Env) (cause arg : Nat) (b : Body) : Body :=
  if b.retired then b
  else
    let b := (b.setField oDevStat 7 1 1).setField oMpStat 0 3 4
    (sendRetire e cause arg (stopAll e b)).raisePf 1

-- Whistles (R451 to R454).

/-- The WSEQ last applied. -/
def lastWseq (b : Body) : Nat := b.field oMpWhistle 32 32

/-- WSEQ of a whistle or rejoin (R451, R432). -/
def Msg.wseq (m : Msg) : Nat := if m.num 0 1 = 5 then m.num 32 4 else m.num 16 4

/-- The coordinate that a whistle or rejoin names. -/
def Msg.coord (m : Msg) : Nat := if m.num 0 1 = 5 then m.num 16 2 else m.num 20 2

/-- R452, but for WSEQ: from a referee of its rank, and of no older term. -/
def msgAuthentic (b : Body) (m : Msg) : Bool :=
  let r := m.num 14 1
  r ≤ 2 && m.num 2 2 == refCoord b r && (mpTerm b < m.num 12 2 || (m.num 12 2 == mpTerm b && r == mpActing b))

/-- A higher TERM adopted with its sender's rank (R452). -/
def adoptTerm (m : Msg) (b : Body) : Body :=
  if mpTerm b < m.num 12 2 then (b.setField oMpRef 32 16 (m.num 12 2)).setField oMpRef 24 2 (m.num 14 1) else b

/-- A sweep under way is aborted (R461). -/
def abortSweep (b : Body) : Body :=
  if b.field oMpAgree 0 2 = 1 then
    { b with dev.mp.agreePend := [], dev.mp.agreeWait := false }.setField oMpAgree 0 2 3
  else b

/-- MP_WHISTLE after a message has been applied (R453, R467). -/
def whistleDone (m : Msg) (done : Nat) (b : Body) : Body :=
  b.setCsr oMpWhistle (m.wseq * 2 ^ 32 + m.coord * 2 ^ 16 + done)

/-- The squads with FB_PERMq.TORUS are told: their functions and their tiles (step 5 of R453). -/
def tellSquads (b : Body) : Body :=
  overList ((List.range 8).filter fun q => b.squadValid q && bitOf (b.eff (oRtr (0x80 + 8 * q))) 6) (fun q b =>
    overList (b.squadTiles q) (fun n b => b.setIpend (b.siteOf n) 2) (b.raiseSquad q 1)) b

/-- TR_GEN written by the MP (R408). -/
def mpGen (e : Env) (g : Nat) (b : Body) : Body := trGenWrite e .mp g b

/-- Steps 2 to 5 of R453, or R454 for a whistle that names this device. -/
def applyWhistle (e : Env) (m : Msg) (b : Body) : Body :=
  let b := abortSweep b
  if m.coord = b.coord then
    let b := whistleDone m 1 b
    if b.retired then sendRetire e 4 0 b else retireDevice e 4 0 b
  else
    let b := flowResetAll e m.coord (addDead (BitVec.ofNat 16 m.coord) b)
    let b := mpGen e (m.num 22 2) (b.putCsr (oTr 0x20) (m.num 32 2))
    tellSquads (whistleDone m 0x1F b)

/-- A rejoin applied (R456). -/
def applyRejoin (e : Env) (m : Msg) (b : Body) : Body :=
  let x := BitVec.ofNat 16 m.coord
  let b := flowResetAll e m.coord (abortSweep b)
  whistleDone m 0x1F (dropDead x { b with dev.mp.retires := b.dev.mp.retires.filter (· != x) })

/-- A whistle or rejoin applied. -/
def applyMsg (e : Env) (m : Msg) (b : Body) : Body := if m.num 0 1 = 5 then applyRejoin e m b else applyWhistle e m b

/-- The held messages whose turn has come (R452). -/
def applyHeld (e : Env) : Nat → Body → Body
  | 0, b => b
  | n + 1, b =>
    match b.dev.mp.heldSeq.find? fun m => m.wseq == (lastWseq b + 1) % 2 ^ 32 with
    | some m => applyHeld e n (applyMsg e m { b with dev.mp.heldSeq := b.dev.mp.heldSeq.erase m })
    | none => b

/-- A whistle or rejoin received (R452, R453, R456): forwarded, to all but the neighbour it came from and the device it names,
and applied or held in its order. A copy of one that is held is a duplicate; another message with its WSEQ takes its place
(log entry 44). -/
def acceptMsg (e : Env) (m : Msg) (b : Body) : Body :=
  let d := serialDiff m.wseq (lastWseq b) 32
  let dup := b.dev.mp.heldSeq.any fun x => x.bytes == m.bytes
  if !msgAuthentic b m || d ≤ 0 || dup then b
  else
    let b := flood e [m.src, m.coord] m.bytes (adoptTerm m b)
    let b := { b with dev.mp.heldSeq := b.dev.mp.heldSeq.filter fun x => x.wseq != m.wseq }
    if d = 1 then applyHeld e b.dev.mp.heldSeq.length (applyMsg e m b)
    else { b with dev.mp.heldSeq := b.dev.mp.heldSeq ++ [m] }

/-- The acting referee whistles a device (R450, R451): the message is flooded, and applied here. -/
def issueWhistle (e : Env) (x serial members reason : Nat) (b : Body) : Body :=
  let l := mpMessage e b 1 [(16, leBytes (lastWseq b + 1) 4), (20, leBytes x 2), (22, leBytes (b.gen + 1) 2),
    (24, leBytes serial 8), (32, leBytes members 2), (34, leBytes reason 1)]
  acceptMsg e { src := b.coord, bytes := l } b

/-- The TR_MEMBERS that a whistle for `x` gives: the value held, with `x`'s D position cleared and the spare position set that
host privilege gave the referee, if any (R451; log entry 44). -/
def membersWithout (b : Body) (x : Nat) (spare : BitVec 16) : Nat :=
  (b.field (oTr 0x20) 0 16 &&& (0xFFFF - 2 ^ axisOf x 0)) ||| spare.toNat

/-- The PKG_SERIAL of a device as this one knows it: the partner of a port, else open (log entry 3). -/
def serialOf (b : Body) (x : Nat) : Nat × Body :=
  match (List.range 8).find? fun p => b.neighbour p == x && b.peer p != 0 with
  | some p => (b.peer p, b)
  | none => let (v, b) := b.freshValue; (v.toNat, b)

-- Agreement sweeps (R461).

/-- The last digest as an unsigned number. -/
def lastDigest (b : Body) : Nat := (List.range 4).foldl (fun n k => n + b.csr (oMpDigest k) * 2 ^ (64 * k)) 0

/-- The next device of an axis in a direction that is not in the dead table. -/
def nextLive (b : Body) (a : Nat) (plus : Bool) : Nat → Nat → Nat
  | 0, c => c
  | n + 1, c => let d := b.nextOn c a plus; if d = b.coord || !b.isDead d then d else nextLive b a plus n d

/-- The AGREE of the current round goes to the next device in the + direction. -/
def sendAgree (e : Env) (b : Body) : Body :=
  let m := b.dev.mp
  let l := mpMessage e b 7 [(16, leBytes (b.field oMpAgree 32 32) 4), (20, leBytes m.agreePhase 1),
    (21, leBytes m.agreeRound 1), (24, leBytes m.agreeMin 32), (56, leBytes m.agreeMax 32)]
  sendMsg e (nextLive b m.agreePhase true 16 b.coord) l b

/-- The sweep ends (R461). -/
def agreeDone (b : Body) : Body :=
  let m := b.dev.mp
  let b := foldN 4 (fun k b =>
    (b.setCsr (oMpAgreeMin k) (bitsOf m.agreeMin (64 * k) 64)).setCsr (oMpAgreeMax k) (bitsOf m.agreeMax (64 * k) 64)) b
  (b.setField oMpAgree 3 1 (b2n (m.agreeMin == m.agreeMax))).setField oMpAgree 0 2 2

/-- On to the first round of the phases from `phase` that has one, or to the end. -/
def agreeFrom (e : Env) (phase : Nat) (b : Body) : Body :=
  match (List.range 4).find? fun a => phase ≤ a && 2 ≤ b.axisSize a with
  | some a => sendAgree e { b with dev.mp.agreePhase := a, dev.mp.agreeRound := 1 }
  | none => agreeDone b

/-- Is it the AGREE that the current round waits for? -/
def agreeExpected (b : Body) (m : Msg) : Bool :=
  let s := b.dev.mp
  m.num 16 4 == b.field oMpAgree 32 32 && m.num 20 1 == s.agreePhase && m.num 21 1 == s.agreeRound &&
    m.num 2 2 == nextLive b s.agreePhase false 16 b.coord

/-- The received minimum and maximum folded in, and the next round (R461). -/
def agreeFold (e : Env) (m : Msg) (b : Body) : Body :=
  let s := b.dev.mp
  let b := { b with dev.mp.agreeMin := min s.agreeMin (m.num 24 32), dev.mp.agreeMax := max s.agreeMax (m.num 56 32) }
  if s.agreeRound + 1 < b.axisSize s.agreePhase then
    sendAgree e { b with dev.mp.agreeRound := s.agreeRound + 1 }
  else agreeFrom e (s.agreePhase + 1) b

/-- Rounds go on while the AGREE that each waits for has arrived. -/
def agreeRounds (e : Env) : Nat → Body → Body
  | 0, b => b
  | n + 1, b =>
    if b.field oMpAgree 0 2 != 1 || b.dev.mp.agreeWait then b
    else match b.dev.mp.agreePend.find? (agreeExpected b) with
      | some m => agreeRounds e n (agreeFold e m { b with dev.mp.agreePend := b.dev.mp.agreePend.erase m })
      | none => b

/-- The sweep runs where the digest is current: minimum and maximum set, first round begun. -/
def agreeBegin (e : Env) (b : Body) : Body :=
  if b.flag oMpStat 10 then { b with dev.mp.agreeWait := true }
  else
    let d := lastDigest b
    let b := agreeFrom e 0 { b with dev.mp.agreeWait := false, dev.mp.agreeMin := d, dev.mp.agreeMax := d }
    agreeRounds e b.dev.mp.agreePend.length b

/-- A sweep starts on this device and is flooded onward (R461). -/
def agreeStart (e : Env) (m : Msg) (b : Body) : Body :=
  let n := m.num 16 4
  if serialDiff n (b.field oMpAgree 32 32) 32 ≤ 0 then b
  else
    let b := flood e [m.src] m.bytes b
    let b := b.setCsr oMpAgree (n * 2 ^ 32 + 1)
    agreeBegin e { b with dev.mp.agreePend := b.dev.mp.agreePend.filter fun x => x.num 16 4 == n }

end Sys2Proof.Machine
end

