-- ==== Sys2Proof/Machine/Hbm.lean ====
section
/-! DEFINITION. The HBM controllers' own rows: patrol scrub, lane repair, and the loss of a stack (R275, R277 to R279). -/
namespace Sys2Proof.Machine

/-- Lines of a stack (R273). -/
def stackLines : Nat := 2 ^ 30

/-- The address of line `i` of a stack: its 256 KiB blocks are every twelfth of the map (R273). -/
def scrubLine (k i : Nat) : Nat := (12 * (i / 4096) + k) * 2 ^ 18 + i % 4096 * 64

/-- SCRUB_READ (R277): the next line is read, with what R275 does on what is found. -/
def scrubRead (k : Nat) (e : Env) (b : Body) : Body :=
  if 12 ≤ k || !b.flag (oHm k 0x18) 16 || stackLost b k then b
  else
    let i := b.dev.scrub.get 0 k
    let b := { b with dev.scrub := b.dev.scrub.set k ((i + 1) % stackLines) }
    (checkLine e (scrubLine k i) b).2

/-- SCRUB_READ. -/
def execScrubRead (stack : Nat) (s : State) : Host.Outcome State Fault Refusal := bodyStep (scrubRead stack) s

/-- A stack is lost, and the device retires (R279). -/
def loseStack (e : Env) (k lane : Nat) (inj : Bool) (b : Body) : Body :=
  if stackLost b k then b
  else
    let b := (b.setField (oHm k 0) 8 2 2).setEvent (oHm k 0) 0 5
    let b := recordErr e { kind := 0x0A, sev := 3, inj := inj, det := detOf 8 k, unit := lane / 64, addr := lane } b
    retireDevice e 1 k b

/-- The lowest-numbered free spare of a stack (R278). -/
def freeSpare (b : Body) (k : Nat) : Option Nat := (List.range 8).find? fun n => !b.flag (oHm k (0x40 + 8 * n)) 63

/-- LANE_REPAIR (R278): the lane that qualifies takes the lowest-numbered free spare, and its channel pauses; with none left
the stack is lost. An injected repair is not kept in flash (R439). -/
def laneRepair (k lane : Nat) (e : Env) (b : Body) : Body :=
  if 12 ≤ k || 2048 ≤ lane || stackLost b k then b
  else
    let (inj, b) := check (detOf 8 k) (lane / 64) b
    if b.field (oHm k 0) 12 4 = 0 then loseStack e k lane inj.isSome b
    else match freeSpare b k with
      | none => loseStack e k lane inj.isSome b
      | some n =>
        let b := b.setCsr (oHm k (0x40 + 8 * n)) (2 ^ 63 + lane)
        let b := (b.setField (oHm k 0) 12 4 (b.field (oHm k 0) 12 4 - 1)).setField (oHm k 0) 8 2 1
        let b := recordErr e { kind := 9, sev := 0, inj := inj.isSome, det := detOf 8 k, unit := lane / 64, addr := lane } b
        if inj.isSome then b else { b with dev.repairs := b.dev.repairs ++ [(8 * k + n, lane)] }

/-- LANE_REPAIR. -/
def execLaneRepair (stack lane : Nat) (s : State) : Host.Outcome State Fault Refusal := bodyStep (laneRepair stack lane) s

/-- LANE_REPAIR_END (R278). -/
def laneRepairEnd (k : Nat) (b : Body) : Body :=
  if k < 12 && b.field (oHm k 0) 8 2 == 1 then b.setField (oHm k 0) 8 2 0 else b

/-- LANE_REPAIR_END. -/
def execLaneRepairEnd (stack : Nat) (s : State) : Host.Outcome State Fault Refusal := bodyStep (fun _ b => laneRepairEnd stack b) s

/-- STACK_LOST (R279). -/
def execStackLost (stack : Nat) (s : State) : Host.Outcome State Fault Refusal :=
  bodyStep (fun e b => if stack < 12 then loseStack e stack 0 false b else b) s

end Sys2Proof.Machine
end

