-- ==== Sys2Proof/Machine/Mp.lean ====
section
/-! DEFINITION. The management processor's rows: received DATA frames, referees, whistles, agreement, the ERR block, the last
digest, and duty tiers (R338, R431 to R463, R515). -/
namespace Sys2Proof.Machine

-- DATA frames (R338, R431, R433).

/-- A new DATA frame: a management message goes to the MP's queue, any other waits to be applied. -/
def takeData (f : Frame) (b : Body) : Body :=
  if f.isMgmt then queueMsg { src := f.src.toNat, bytes := f.body } b
  else { b with dev.fab.inbox := b.dev.fab.inbox ++ [f] }

/-- A DATA frame at its destination, with the acknowledgement it carries (R338, R339). -/
def dataHere (e : Env) (p k : Nat) (f : Frame) (b : Body) : Body := receiveData e p f takeData (takeAck e k f b)

/-- DATA. -/
def execData (port : Nat) (f : Frame) (s : State) : Host.Outcome State Fault Refusal :=
  bodyStep (fun e b => if f.typ = 1 then receive e port f (dataHere e port) b else b) s

-- Whistles and the referee (R448 to R456).

/-- A row that takes the oldest message of an MTYPE. -/
def msgRow (mtype : Nat) (f : Env → Msg → Body → Body) (e : Env) (b : Body) : Body :=
  match takeMsg mtype b with
  | some (m, b) => f e m b
  | none => b

/-- WHISTLE (R452, R453). -/
def execWhistle (s : State) : Host.Outcome State Fault Refusal := linkStep (msgRow 1 acceptMsg) s

/-- REJOIN (R456). -/
def execRejoin (s : State) : Host.Outcome State Fault Refusal := linkStep (msgRow 5 acceptMsg) s

/-- What a referee knows against a device: who reported it, and when. -/
def addEvidence (x by_ : Nat) (b : Body) : Body :=
  { b with dev.mp.suspects :=
    (b.dev.mp.suspects.filter fun s => b.dev.ticks < s.2.2 + second) ++ [(BitVec.ofNat 16 x, BitVec.ofNat 16 by_, b.dev.ticks)] }

/-- A device's own RETIRE: it holds until the device rejoins. -/
def addRetire (x : Nat) (b : Body) : Body :=
  let x := BitVec.ofNat 16 x
  { b with dev.mp.retires := if b.dev.mp.retires.contains x then b.dev.mp.retires else b.dev.mp.retires ++ [x] }

/-- Is there evidence against a device under R450: its RETIRE, two reporters within 1 s, or one where it has only one
neighbour? -/
def evidence (b : Body) (x : Nat) : Bool :=
  let l := ((b.dev.mp.suspects.filter fun s => s.1.toNat == x && b.dev.ticks < s.2.2 + second).map (·.2.1)).eraseDups
  b.dev.mp.retires.contains (BitVec.ofNat 16 x) || 2 ≤ l.length || (l.length == 1 && (neighboursOf b x).length == 1)

/-- RETIRE at a referee (R450). -/
def retireRow (spare : BitVec 16) (e : Env) (m : Msg) (b : Body) : Body :=
  if mpRole b = 3 then b
  else
    let x := m.num 2 2
    let b := addRetire x b
    if isActing b && !b.isDead x then issueWhistle e x (m.num 4 8) (membersWithout b x spare) 1 b else b

/-- RETIRE. `spare` holds the spare position that the referee sets in TR_MEMBERS where it whistles (R451). -/
def execRetire (s : State) (spare : BitVec 16 := 0) : Host.Outcome State Fault Refusal := linkStep (msgRow 2 (retireRow spare)) s

/-- SUSPECT at a referee: a whistle on enough of them, else a report to host privilege (R450). -/
def suspectRow (spare : BitVec 16) (e : Env) (m : Msg) (b : Body) : Body :=
  if mpRole b = 3 then b
  else
    let x := m.num 16 2
    let b := addEvidence x (m.num 2 2) b
    if !isActing b || b.isDead x then b
    else if evidence b x then
      let (v, b) := serialOf b x
      issueWhistle e x v (membersWithout b x spare) 2 b
    else b.raisePf 1

/-- SUSPECT. -/
def execSuspect (s : State) (spare : BitVec 16 := 0) : Host.Outcome State Fault Refusal := linkStep (msgRow 3 (suspectRow spare)) s

/-- The evidence that a port gives against its neighbour (R449, R432). -/
def portEvidence (b : Body) (p : Nat) : Option Nat :=
  if b.csr (oRtr 0x58) = 2 ^ 63 + b.neighbour p then some 1
  else if !b.carries p then some 2
  else if b.flag (oFb p 0x10) 28 then some 3
  else none

/-- Has this device reported another within the last 100 ms (R449)? -/
def toldOf (b : Body) (x : Nat) : Bool := b.dev.mp.told.any fun t => t.1.toNat == x && b.dev.ticks < t.2 + 100000000

/-- SUSPECT_SEND (R449): one SUSPECT about a device in 100 ms. -/
def suspectSend (p : Nat) (e : Env) (b : Body) : Body :=
  let x := b.neighbour p
  if !isTorus p || toldOf b x then b
  else match portEvidence b p with
    | none => b
    | some v =>
      let l := mpMessage e b 3 [(16, leBytes x 2), (18, leBytes v 1)]
      let told := b.dev.mp.told.filter (fun t => t.1.toNat != x) ++ [(BitVec.ofNat 16 x, b.dev.ticks)]
      overList (referees b) (fun c => sendMsg e c l) { b with dev.mp.told := told }

/-- SUSPECT_SEND. -/
def execSuspectSend (port : Nat) (s : State) : Host.Outcome State Fault Refusal := bodyStep (suspectSend port) s

/-- HEARTBEAT_SEND (R455): a referee tells the other two. -/
def heartbeatSend (e : Env) (b : Body) : Body :=
  if mpRole b = 3 then b
  else
    let l := mpMessage e b 4 [(16, leBytes (lastWseq b) 4)]
    overList ((referees b).filter (· != b.coord)) (fun c => sendMsg e c l) b

/-- HEARTBEAT_SEND. -/
def execHeartbeatSend (s : State) : Host.Outcome State Fault Refusal := bodyStep heartbeatSend s

/-- HEARTBEAT (R455): one from a lower rank starts the takeover wait again. -/
def heartbeatRow (_ : Env) (m : Msg) (b : Body) : Body :=
  if mpRole b != 3 && m.num 14 1 < mpRole b then { b with dev.mp.hbTick := b.dev.ticks } else b

/-- HEARTBEAT. -/
def execHeartbeat (s : State) : Host.Outcome State Fault Refusal := bodyStep (msgRow 4 heartbeatRow) s

/-- REFEREE_TAKEOVER (R455). -/
def takeover (members : BitVec 16) (e : Env) (b : Body) : Body :=
  let r := mpRole b
  let x := refCoord b (mpActing b)
  if r = 0 || r = 3 || isActing b || b.dev.ticks < b.dev.mp.hbTick + 50000000 * r || !evidence b x then b
  else
    let b := (b.setField oMpRef 32 16 (mpTerm b + 1)).setField oMpRef 24 2 r
    let (v, b) := serialOf b x
    issueWhistle e x v members.toNat 4 b

/-- REFEREE_TAKEOVER. -/
def execRefereeTakeover (members : BitVec 16) (s : State) : Host.Outcome State Fault Refusal := linkStep (takeover members) s

-- Agreement (R461, R462).

/-- AGREE_START: waits while T4 is shed. -/
def execAgreeStart (s : State) : Host.Outcome State Fault Refusal :=
  bodyStep (fun e b => if shed b 4 then b else msgRow 6 agreeStart e b) s

/-- AGREE (R461): of the sweep that runs, or of one whose start has not come yet. -/
def agreeRow (e : Env) (m : Msg) (b : Body) : Body :=
  let d := serialDiff (m.num 16 4) (b.field oMpAgree 32 32) 32
  if d < 0 || (d = 0 && b.field oMpAgree 0 2 != 1) then b
  else
    let b := { b with dev.mp.agreePend := b.dev.mp.agreePend ++ [m] }
    agreeRounds e b.dev.mp.agreePend.length b

/-- AGREE: waits while T4 is shed. -/
def execAgree (s : State) : Host.Outcome State Fault Refusal :=
  bodyStep (fun e b => if shed b 4 then b else msgRow 7 agreeRow e b) s

/-- A new sweep of the acting referee, flooded (R461). -/
def agreeNew (e : Env) (b : Body) : Body :=
  agreeStart e { src := b.coord, bytes := mpMessage e b 6 [(16, leBytes (b.field oMpAgree 32 32 + 1) 4)] } b

/-- AGREE_WRITE_START (R461): host privilege at the acting referee; it waits while T4 is shed (R462). -/
def agreeWrite (ag : Agent) (e : Env) (b : Body) : Body :=
  match ag with
  | .host _ 0 =>
    if !isActing b then csrError e ag oMpAgree b
    else if shed b 4 then { b with dev.mp.agreeAsked := true }
    else agreeNew e b
  | _ => csrError e ag oMpAgree b

/-- AGREE_WRITE_START. -/
def execAgreeWriteStart (ag : Agent) (s : State) : Host.Outcome State Fault Refusal := bodyStep (agreeWrite ag) s

-- The ERR block (R434, R438, R515).

/-- ERR_TAIL_WRITE (R515). -/
def errTail (ag : Agent) (v : Nat) (e : Env) (b : Body) : Body :=
  let used := b.field (oErr 0) 9 10
  let tail := b.field (oErr 8) 0 9
  let c := if v % 512 = b.field (oErr 0) 0 9 then used else (v % 512 + 512 - tail) % 512
  if !mayWrite ag (oErr 8) || used < c then csrError e ag (oErr 8) b
  else (b.setField (oErr 8) 0 9 v).setField (oErr 0) 9 10 (used - c)

/-- ERR_TAIL_WRITE. -/
def execErrTailWrite (ag : Agent) (v : Word64) (s : State) : Host.Outcome State Fault Refusal :=
  bodyStep (errTail ag v.toNat) s

/-- The classes in which a mode may be injected (R438). -/
def injAllowed (mode cls : Nat) : Bool :=
  match mode with
  | 1 => (1 ≤ cls && cls ≤ 7) || cls == 10 || cls == 14
  | 2 => (1 ≤ cls && cls ≤ 7) || cls == 9 || cls == 10 || cls == 14
  | 3 => cls == 8 || cls == 9 || cls == 11 || cls == 12
  | 4 => cls == 13
  | _ => false

/-- A write of ERR_INJ_CTL (R438, R440): fields while nothing is armed, and with ARM an injection; a MODE that R438 does
not list and a COUNT of 0 are reserved (R2, R3). -/
def errInj (ag : Agent) (v : Nat) (e : Env) (b : Body) : Body :=
  let arm := bitOf v 40
  let count := bitsOf v 32 8
  if !mayWrite ag (oErr 0x18) || b.flag (oErr 0x20) 8 || !encodingOk (oErr 0x18) v ||
      (arm && (!b.flag (oErr 0x10) 0 || !injAllowed (bitsOf v 24 3) (bitsOf v 12 4))) then csrError e ag (oErr 0x18) b
  else
    let b := b.setCsr (oErr 0x18) (bitsOf v 0 27 + count * 2 ^ 32)
    if arm then b.setCsr (oErr 0x20) (2 ^ 8 + count) else b

/-- ERR_INJ_ARM. -/
def execErrInjArm (ag : Agent) (v : Word64) (s : State) : Host.Outcome State Fault Refusal := bodyStep (errInj ag v.toNat) s

/-- EYE_MARGIN_CHECK (R434): below 15 % of nominal is recorded. -/
def eyeMargin (inst lane pct : Nat) (e : Env) (b : Body) : Body :=
  if 12 ≤ inst then b
  else
    let (inj, b) := check (detOf 11 inst) lane b
    if pct < 15 || inj.isSome then
      recordErr e { kind := 0x0D, sev := 0, inj := inj.isSome, det := detOf 11 inst, unit := lane, addr := lane } b
    else b

/-- EYE_MARGIN_CHECK. -/
def execEyeMarginCheck (inst lane pct : Nat) (s : State) : Host.Outcome State Fault Refusal :=
  bodyStep (eyeMargin inst lane pct) s

-- The last digest (R458, R459).

/-- The words of the canonical configuration image (R458). -/
def cfgImage (e : Env) (b : Body) : List Nat :=
  [0x4C440001, b.csr oMpEpoch, b.csr (oDg 0), b.field oMpFw 0 32] ++ [0x08, 0x10, 0x18, 0x28].map (fun r => b.csr (oRtr r)) ++
    (List.range 8).map (fun q => b.eff (oRtr (0x80 + 8 * q))) ++ [0x00, 0x10, 0x18, 0x20, 0x28].map (fun r => b.csr (oTr r)) ++
    [b.csr (oDg 0x18), putBits e.time.cfg.toNat 3 1 0, b.csr oMpRefCoord] ++
    (List.range 8).flatMap (fun q => [0, 8, 0x10, 0x18].map fun r => b.csr (oSq q r)) ++ [b.csr oSqArb]

/-- The last digest computed (R458, R459). -/
def lastDigestOf (e : Env) (b : Body) : Nat := beNum (sha256 ((cfgImage e b).flatMap fun w => leBytes w 8))

/-- CFG_DIGEST_RECOMPUTE (R459), at T4; a sweep that waited for it begins (R461). -/
def cfgDigest (e : Env) (b : Body) : Body :=
  if shed b 4 then b
  else
    let d := lastDigestOf e b
    let b := foldN 4 (fun k b => b.setCsr (oMpDigest k) (bitsOf d (64 * k) 64)) b
    let b := b.setField oMpStat 9 2 0
    if b.dev.mp.agreeWait && b.field oMpAgree 0 2 = 1 then agreeBegin e b else b

/-- CFG_DIGEST_RECOMPUTE. -/
def execCfgDigestRecompute (s : State) : Host.Outcome State Fault Refusal := bodyStep cfgDigest s

/-- DIGEST_STALE (R459). -/
def execDigestStale (s : State) : Host.Outcome State Fault Refusal :=
  bodyStep (fun _ b => if b.flag oMpStat 9 then b.setField oMpStat 10 1 1 else b) s

-- Duty tiers (R462, R463).

/-- An ECC check of the MP's memory (R434): the record of an injected error. -/
def mpMemCheck (e : Env) (unit : Nat) (b : Body) : Body :=
  match check (detOf 14 0) unit b with
  | (some 1, b) => recordErr e { kind := 4, sev := 0, inj := true, det := detOf 14 0, unit := unit } b
  | (some _, b) => recordErr e { kind := 5, sev := 1, inj := true, det := detOf 14 0, unit := unit } b
  | (none, b) => b

/-- A tier is shed or restored; MBOX_BUSY while T3 is shed (R462). -/
def setShed (t : Nat) (on : Bool) (b : Body) : Body :=
  let b := b.setField oMpStat (29 + t) 1 (b2n on)
  if t = 3 then b.setField oMpStat 8 1 (b2n on) else b

/-- WATCHDOG_KICK (R464). -/
def watchdogKick (core : Nat) (e : Env) (b : Body) : Body :=
  if 4 ≤ core then b
  else mpMemCheck e core { b with dev.mp.kicks := b.dev.mp.kicks ||| BitVec.ofNat 4 (2 ^ core) }

/-- WATCHDOG_KICK. -/
def execWatchdogKick (core : Nat) (s : State) : Host.Outcome State Fault Refusal := bodyStep (watchdogKick core) s

end Sys2Proof.Machine
end

