-- ==== Sys2Proof/Machine/SquadOps.lean ====
section
/-! DEFINITION. Call-ups (R475 to R479) and ingest (R473, R423) as the shared operations behind their rows. -/
namespace Sys2Proof.Machine

/-- SQ_STATq. -/
def oSqStat (q : Nat) : Nat := oSq q 0x28

/-- STATE of squad q's call-up (R476): 0 IDLE, 1 PREEMPTING, 2 CALLED, 3 RETURNING. -/
def Body.callState (b : Body) (q : Nat) : Nat := b.field (oSqStat q) 0 2

/-- It changes. -/
def Body.setCallState (b : Body) (q st : Nat) : Body := b.setField (oSqStat q) 0 2 st

/-- The logical tiles of squad q's range (R475). -/
def callTiles (b : Body) (q : Nat) : List Nat :=
  (List.range (b.field (oSq q 8) 17 7)).map (· + b.field (oSq q 8) 8 9)

/-- The donor squad. -/
def callDonor (b : Body) (q : Nat) : Nat := b.field (oSq q 8) 0 3

/-- The sites of the range. -/
def callSites (b : Body) (q : Nat) : List Nat := (callTiles b q).map b.siteOf

/-- An event of SQ_STATq: its bit, and vector 3 of the squad's function (R468, R494). -/
def sqEvent (q bit : Nat) (b : Body) : Body :=
  if b.flag (oSqStat q) bit then b else (b.setField (oSqStat q) bit 1 1).raiseSquad q 3

/-- The SQ unit changed. -/
def Body.modSq (b : Body) (f : SqSt → SqSt) : Body := { b with dev.sq := f b.dev.sq }

/-- A call-up begins (R476): every range tile's solver sequencer is flushed, then the donor's core is asked to yield. -/
def callBegin (e : Env) (q : Nat) (b : Body) : Body :=
  let b := (b.setCallState q 1).modSq fun x =>
    { x with waits := x.waits.filter (· != q), asked := x.asked.filter (· != q), starts := x.starts.set q b.dev.ticks }
  let b := overList (callSites b q) (fun s b => svFlush s e b) b
  overList (callSites b q) (fun s b =>
    (b.modSite s fun t => { t with yielded := false, core := { t.core with preemptSquad := q } }).setIpend s 1) b

/-- A start of squad q's call-up (R475). -/
def callStart (e : Env) (q : Nat) (b : Body) : Body :=
  if b.callState q != 0 || !b.squadValid q || !b.squadDeadline q then b
  else if (callTiles b q).any fun n => b.squadOf n != some (callDonor b q) then
    sqEvent q 7 (b.modSq fun x => { x with waits := x.waits.filter (· != q), asked := x.asked.filter (· != q) })
  else if (callTiles b q).any b.holdOf then
    b.modSq fun x => { x with waits := if x.waits.contains q then x.waits else x.waits ++ [q] }
  else callBegin e q b

/-- The SQ unit's own bump (R476): its SQ_TILEn values, and what else is held, take effect under R294. `none` while it has
to wait; requests that `own` picks are the call-up's and do not hold it back. -/
def sqBump (own : HeldReq → Bool) (l : List (Nat × Nat)) (b : Body) : Option Body :=
  if b.dev.pg.bumping || stagedMoves b ||
      b.dev.held.any (fun h => !own h && decide (serialDiff h.epoch b.epoch 32 < 0)) then none
  else
    let b := if b.flag oPgStat 18 then dropStage b else b
    let b := overList l (fun x b => (b.setCsr (oSqTile x.1) x.2).modPg fun p =>
      { p with heldRegs := if p.heldRegs.contains (oSqTile x.1) then p.heldRegs else p.heldRegs ++ [oSqTile x.1] }) b
    some (applyHeldChanges b)

/-- Is a held request addressed to a tile of the range? -/
def toRange (b : Body) (q : Nat) (h : HeldReq) : Bool := (callTiles b q).any h.waitsFor

/-- A core started by the SQ unit at a PC in TILE_SUPER. -/
def CoreSt.startAt (c : CoreSt) (pc : Nat) : CoreSt :=
  { c with pc := BitVec.ofNat 21 (4 * pc), stopped := false, stopReq := false, fresh := false, double := false,
           priv := true, dslot := none, wait := none, issue := none, mstall := none, shLeft := 0 }

/-- CALLUP_CALLED (R476): every range tile has yielded. -/
def callCalled (e : Env) (q : Nat) (b : Body) : Body :=
  if 8 ≤ q || b.callState q != 1 || !(callSites b q).all (fun s => (b.site s).yielded && (b.site s).core.stopped) then b
  else match sqBump (fun _ => false) ((callTiles b q).map fun n => (n, 8 + q)) b with
    | none => b
    | some b =>
      let lend := b.field (oSq q 8) 32 32
      let b := overList (callTiles b q) (fun n b =>
        let s := b.siteOf n
        let b := b.modSq fun x => { x with power := x.power.set n ((List.range 32).map fun k => ((b.site s).bank k).target) }
        let b := foldN 32 (fun k b => applyPower e s k (if bitOf lend k then 2 else 1) b) b
        b.modSite s fun t => { t with yielded := false, core := CoreSt.initial.startAt (b.field (oSq q 0x10) 18 19) }) b
      let took := b.dev.ticks - b.dev.sq.starts.get 0 q
      (b.setField (oSqStat q) 16 16 (min took 0xFFFF)).setCallState q 2

/-- A core that has not yielded is stopped; its queues end with FLUSHED and its solver part with SPAN_FAIL (R477). -/
def forceCore (e : Env) (s : Nat) (b : Body) : Body :=
  if (b.site s).yielded then b
  else
    let b := b.modSite s fun t => { t with core := t.core.stop }
    svEndAll s svSpanFail e (cpFlush s e (vxFlush s e (mxFlush s e b)))

/-- RETURNING is entered by RETURN or a forced end (R477, R479). During PREEMPTING the donor cores that have not yielded
are no longer asked to. -/
def callForce (e : Env) (q : Nat) (b : Body) : Body :=
  match b.callState q with
  | 1 => overList (callSites b q) (fun s b => b.modSite s fun t =>
      { t with core := { t.core with ipend := t.core.ipend &&& 5 } }) (b.setCallState q 3)
  | 2 => overList (callSites b q) (forceCore e) (b.setCallState q 3)
  | _ => b

/-- Has a called tile been moved into squad q? -/
def called (b : Body) (q : Nat) : Bool := (callTiles b q).all fun n => b.squadOf n == some q

/-- May the return complete: every deadline core has stopped, on its own with its queues empty or by force (R476, R477)? -/
def returnReady (b : Body) (q : Nat) : Bool :=
  let sites := callSites b q
  match b.callState q with
  | 2 => sites.all fun s => (b.site s).yielded && (b.site s).core.stopped && (b.site s).enginesIdle
  | 3 => sites.all fun s => (b.site s).core.stopped || !(called b q || (b.site s).yielded)
  | _ => false

/-- CALLUP_RETURNED (R476, R477): the bump and the bank states are reversed, the donor cores resume, and what waited for
the tiles is released. -/
def callReturned (e : Env) (q : Nat) (b : Body) : Body :=
  if 8 ≤ q || !returnReady b q then b
  else
    let was := called b q
    let moved := if was then sqBump (toRange b q) ((callTiles b q).map fun n => (n, 8 + callDonor b q)) b else some b
    match moved with
    | none => b
    | some b =>
      let b := overList (callTiles b q) (fun n b =>
        let s := b.siteOf n
        let b := if was then foldN 32 (fun k b => applyPower e s k ((b.dev.sq.power.get [] n).getD k 0) b) b else b
        if was || (b.site s).yielded then
          b.modSite s fun t => { t with yielded := false, core := t.core.startAt (b.field (oSq q 0x10) 37 19) }
        else b) b
      let b := ((b.setField (oSqStat q) 32 16 (b.field (oSqStat q) 32 16 + 1)).setCallState q 0).raiseSquad q 3
      releaseHeld e (fun h => (callTiles b q).any h.waitsFor) b

-- Ingest (R473).

/-- A frame dropped at the ingest ring. -/
def rxDropped (q : Nat) (b : Body) : Body := sqEvent q 6 (b.bumpSat (oSqStat q) 48 16)

/-- The 64-byte header of an ingest slot (R473). -/
def ingestHeader (f : RxFrame) : Nat := f.bytes.length % 2 ^ 16 + f.time % 2 ^ 32 * 2 ^ 32 + f.rule * 2 ^ 64 + 2 ^ 511

/-- A frame written to the next slot of the ring, or dropped (R473); it waits while its tile is held (R27), while a bank of the
slot wakes (R225), and behind an earlier frame of its squad that waits. -/
def ingest (e : Env) (f : RxFrame) (b : Body) : Body :=
  let w := b.csr (oSq f.squad 0x18)
  let n := bitsOf w 0 9
  let slots := 2 ^ bitsOf w 24 3
  let i := b.dev.sq.rxNext.get 0 f.squad % slots
  let o := bitsOf w 32 21 + 0x4000 * i
  let s := b.siteOf n
  let slot : Range := (o, 64 + f.bytes.length)
  if b.holdOf n || wakingIn (b.site s) slot || b.dev.sq.rxWait.any (·.squad == f.squad) then
    b.modSq fun x => { x with rxWait := x.rxWait ++ [f] }
  else if 16320 < f.bytes.length || !(b.site s).servesAll 5 [slot] then rxDropped f.squad b
  else
    let (m, b) := sramView e s [(o + 56, 8)] b
    if bitOf (m.num (siteBase s + o) 64) 511 then rxDropped f.squad b
    else
      let b := { b with mem := b.mem.write (siteBase s + o) (leBytes (ingestHeader f) 64 ++ f.bytes) }
      (b.modSq fun x => { x with rxNext := x.rxNext.set f.squad ((i + 1) % slots) }).advanceTile n (bitsOf w 16 4)

/-- A frame handed to its squad, which may start a call-up (R473, R475). -/
def handOver (e : Env) (f : RxFrame) (b : Body) : Body :=
  let b := ingest e f b
  if b.flag (oSq f.squad 0) 61 then callStart e f.squad b else b

/-- Frames that waited are tried again, in order. -/
def rxRelease (e : Env) (b : Body) : Body := overList b.dev.sq.rxWait (ingest e) (b.modSq fun x => { x with rxWait := [] })

/-- What waited for a tile that is no longer held goes on: frames, then call-ups (R27, R475). -/
def sqRelease (e : Env) (b : Body) : Body := overList b.dev.sq.waits (callStart e) (rxRelease e b)

/-- BANK_WAKE_DONE (R225): the bank is ON, and what waited for it goes on. -/
def execBankWakeDone (site bank : Nat) (s : State) : Host.Outcome State Fault Refusal :=
  bodyStep (fun e b => rxRelease e (bankWakeDone e site bank b)) s

-- Capture (R423).

/-- The capture ring in bytes, its producer and its consumer offset. -/
def capSize (b : Body) : Nat := 2 ^ b.field (oDg 0x38) 59 5
def capHead (b : Body) : Nat := b.field (oDg 0x40) 6 24 * 64
def capTail (b : Body) : Nat := b.field (oDg 0x48) 6 24 * 64

/-- VA of an offset of the ring. -/
def capVa (b : Body) (o : Nat) : Nat := b.field (oDg 0x38) 12 36 * 4096 + o

/-- Bytes rounded up to 64. -/
def pad64 (n : Nat) : Nat := cdiv n 64 * 64

/-- The filler to the ring's end (R423): what its other fields hold is open (log entry 3). -/
def capPad (b : Body) : Nat × Body :=
  let (a, b) := b.freshValue
  let (t, b) := b.freshValue
  let (c, b) := b.freshBelow (2 ^ 24)
  (a.toNat + t.toNat * 2 ^ 64 + c * 2 ^ 128 + 2 ^ 152 + 2 ^ 511, b)

/-- The header of a capture record (R423). -/
def capHeader (b : Body) (port : Nat) (f : RxFrame) : Nat :=
  b.dev.tr.capSeq.toNat + f.time % 2 ^ 64 * 2 ^ 64 + f.rule * 2 ^ 128 + f.squad * 2 ^ 132 + port * 2 ^ 135 +
    f.bytes.length % 2 ^ 16 * 2 ^ 136 + 2 ^ 511

/-- A frame also written to the capture ring; where it has no room, or the ring cannot be reached, the frame is lost to the
recorder (R423). -/
def capture (e : Env) (port : Nat) (f : RxFrame) (b : Body) : Body :=
  let size := capSize b
  let head := capHead b % size
  let used := (capHead b + size - capTail b % size) % size
  let len := 64 + pad64 f.bytes.length
  let wraps := size < head + len
  let fill := if wraps then size - head else 0
  let lost := b.bumpSat (oDg 0x10) 32 16
  if size ≤ used + fill + len then lost
  else
    let at_ := if wraps then 0 else head
    let rec_ := leBytes (capHeader b port f) 64 ++ f.bytes ++ List.replicate (pad64 f.bytes.length - f.bytes.length) 0
    let (pad, b1) := if wraps then capPad b else (0, b)
    let padded := if wraps then vaWrite e (trSquad b) whoCapture (capVa b head) (leBytes pad 64) b1 else (.ok [], b1)
    match padded with
    | (.ok _, b2) =>
      match vaWrite e (trSquad b) whoCapture (capVa b at_) rec_ b2 with
      | (.ok _, b3) =>
        ({ b3 with dev.tr.capSeq := b3.dev.tr.capSeq + 1 }).setField (oDg 0x40) 6 24 ((at_ + len) % size / 64)
      | (_, b3) => b3.bumpSat (oDg 0x10) 32 16
    | (_, b2) => b2.bumpSat (oDg 0x10) 32 16

end Sys2Proof.Machine
end

