-- ==== Sys2Proof/Machine/Subst.lean ====
section
/-! DEFINITION. The substitution map (R24 to R29), the reset of one tile (R212, R228, R500) and substitution (R441 to
R445). -/
namespace Sys2Proof.Machine

-- Tile reset.

/-- The banks of a site after a tile reset: power states and contents stay, fields return to their reset values (R228). -/
def Site.bankReset (t : Site) : Tab Bank :=
  foldN 32 (fun k l => l.set k { t.bank k with owner := 6, guest := 0, lock := false }) []

/-- The row of a launched operation of a copy engine that has not left yet (R364, R378). -/
def cpRow (s : Nat) (o : CpOp) (e : Env) (b : Body) : Body :=
  match o.coll, o.op with
  | false, 1 => cpPut s o.tag e b
  | false, 2 => cpGet s o.tag e b
  | false, 3 => atomic s o.tag e b
  | false, _ => cpOsend s o.tag e b
  | true, 1 | true, 3 => collReduce o.op s o.tag e b
  | true, _ => collGather o.op s o.tag e b

/-- Has a launched operation still to leave? -/
def CpOp.toLeave (o : CpOp) : Bool := !o.issued && o.status.isNone

/-- The launched operations of a site leave for their targets, as far as nothing keeps them waiting (R382; log entry 65). -/
def cpLeave (e : Env) (s : Nat) (b : Body) : Body :=
  overList ((b.site s).cp.ops.filter CpOp.toLeave) (fun o b => cpRow s o e b) b

/-- The reset of the units of a site (R103, R158, R212, R228, R233, R263, R500). What they had asked for elsewhere has no one to
come back to; of the copy engine there remain the launched operations that wait to leave (R382; log entry 65). -/
def unitReset (s : Nat) (b : Body) : Body :=
  let tags := (b.site s).cp.ops.map fun o => whoOp o.tag
  let b := b.modSite s fun t =>
    { Site.initial t.named with
        banks := t.bankReset
        ecc := { t.ecc with ce := 0 }
        cp := { CpSt.initial with ops := (t.cp.ops.filter CpOp.toLeave).map fun o => { o with orphan := true } } }
  { b with dev.held := b.dev.held.filter (fun h => h.r.src != s),
           dev.tr.served := b.dev.tr.served.filter (fun x => x.1 != s),
           dev.pg.stalls := b.dev.pg.stalls.filter (fun k => !tags.contains k.1),
           dev.pg.failed := b.dev.pg.failed.filter (fun k => !tags.contains k.1) }

/-- A tile reset: the launched operations leave, then the units are reset (R382, R500). -/
def tileReset (e : Env) (s : Nat) (b : Body) : Body := unitReset s (cpLeave e s b)

/-- A site with all banks OFF and nothing in them (R29); what waited there on a bank that was WAKING is refused (R225). -/
def darkSite (e : Env) (s : Nat) (named : Bool) (b : Body) : Body :=
  let off : Bank := { owner := 6, guest := 0, lock := false, pwr := .off, target := 0 }
  let b := tileReset e s b
  let b := { b with mem := b.mem.clear (siteBase s) 0x20_0000 }
  releaseHeld e (fun h => h.site == some s) (b.modSite s fun t =>
    { t with named := named, banks := if named then foldN 32 (fun k l => l.set k off) [] else [] })

-- The map.

/-- HOLD is set (R27): a request that has already reached its site waits there and not at its source. -/
def setHold (n : Nat) (b : Body) : Body := (b.setField (oSubst n) 31 1 1).setField (oSubst n) 30 1 0

/-- HOLD is cleared (R27): what waits for the tile goes on, to the site that SITE now names. -/
def clearHold (e : Env) (n : Nat) (b : Body) : Body :=
  let b := (b.setField (oSubst n) 31 1 0).setField (oSubst n) 30 1 0
  sqRelease e (releaseHeld e (fun h => h.waitsFor n) b)

/-- SITE of an entry changes: the old site is held in reset, dark; the new one leaves it with its banks OFF (R29). -/
def renameSite (e : Env) (n new : Nat) (b : Body) : Body :=
  let old := b.siteOf n
  darkSite e new true (darkSite e old false (b.setField (oSubst n) 0 9 new))

/-- May entry n name the site (R25)? -/
def siteAllowed (b : Body) (n site : Nat) : Bool :=
  site == n || (384 ≤ site && site < 408 && (List.range 384).all fun m => m == n || b.siteOf m != site)

/-- SUBST_MAP_WRITE (R24 to R27). -/
def substMapWrite (ag : Agent) (n v : Nat) (e : Env) (b : Body) : Body :=
  let site := bitsOf v 0 9
  let hold := bitOf v 31
  if 384 ≤ n then b
  else if !hostOrMp ag then csrError e ag (oSubst n) b
  else if site = b.siteOf n then
    if hold = b.holdOf n then b else if hold then setHold n b else clearHold e n b
  else if hold && b.holdOf n && siteAllowed b n site then renameSite e n site b
  else csrError e ag (oSubst n) b

/-- SUBST_MAP_WRITE. -/
def execSubstMapWrite (ag : Agent) (n : Nat) (v : Word64) (s : State) : Host.Outcome State Fault Refusal :=
  bodyStep (substMapWrite ag n v.toNat) s

/-- SUBST_DRAINED (R24, R27): no request that had left for the tile remains at its site. -/
def substDrained (n : Nat) (b : Body) : Body :=
  let remains := b.dev.held.any fun h => h.site.isSome && match h.r.dst with
    | .tile m _ => m == n
    | .phys _ => false
  if 384 ≤ n || !b.holdOf n || remains then b else b.setField (oSubst n) 30 1 1

/-- SUBST_DRAINED. -/
def execSubstDrained (n : Nat) (s : State) : Host.Outcome State Fault Refusal := bodyStep (fun _ b => substDrained n b) s

-- Substitution.

/-- MP_SUBST.STATE. -/
def Body.substState (b : Body) : Nat := b.field oMpSubst 18 3

/-- IRQM on the tiles of a squad, but for one, and the interrupt of its function (R442). -/
def substNotice (q : Option Nat) (but_ : Option Nat) (b : Body) : Body :=
  match q with
  | none => b
  | some q =>
    overList ((b.squadTiles q).filter fun m => some m != but_) (fun m b => b.setIpend (b.siteOf m) 2) (b.raiseSquad q 1)

/-- The call-up whose range holds a logical tile (R479). -/
def callOver (b : Body) (n : Nat) : Option Nat :=
  (List.range 8).find? fun q => b.callState q != 0 && (callTiles b q).contains n

/-- The substitution at the front of the queue has its HOLD (R442). -/
def substFront (b : Body) : Body :=
  match b.dev.mp.substs with
  | [] => b
  | (n, _) :: _ => ((b.setField oMpSubst 18 3 1).setField oMpSubst 9 9 n).setField oMpSubst 0 9 0

/-- A bench site is never chosen again; the flash repair record keeps it (R445). -/
def benchBad (site : Nat) (b : Body) : Body :=
  let m := b.dev.benchBad ||| 2 ^ (site - 384)
  { b with dev.benchBad := m }.setField oMpSubst 24 24 m

/-- A substitution of logical tile n starts, or waits for the one before it (R441, R442, R445). -/
def substBegin (e : Env) (n : Nat) (cause : SubstCause) (b : Body) : Body :=
  if b.dev.mp.substs.any (·.1 == n) then
    if b.substState = 4 && b.field oMpSubst 9 9 = n then
      { benchBad (b.siteOf n) (tileReset e (b.siteOf n) b) with dev.mp.restoring := false }.setField oMpSubst 18 3 3
    else b
  else
    let first := b.dev.mp.substs.isEmpty
    let b := substNotice (b.squadOf n) (some n) (if b.holdOf n then b else setHold n b)
    let b := { b with dev.mp.substs := b.dev.mp.substs ++ [(n, cause)] }
    let b := if first then substFront b else b
    match callOver b n with
    | some q => callForce e q b
    | none => b

/-- Is the cause recorded for a site (R441)? A host command is its own record. -/
def causeReal (b : Body) (s : Nat) : SubstCause → Bool
  | .doubleFault => (b.site s).core.double
  | .uncorrectable => b.dev.mp.faulty.contains s
  | .correctedBurst k => 65 ≤ ((b.dev.mp.ces.get [] (s * 32 + k % 32)).filter fun t => b.dev.ticks < t + second).length
  | .hostCommand => true

/-- What was recorded for a site has been acted on. -/
def causeTaken (s : Nat) (b : Body) : Body :=
  { b with dev.mp.faulty := b.dev.mp.faulty.filter (· != s), dev.mp.ces := b.dev.mp.ces.drop (s * 32) 32 }

/-- SUBST_START (R441): the cause must be recorded for the tile's site. -/
def substStart (n : Nat) (cause : SubstCause) (e : Env) (b : Body) : Body :=
  let s := b.siteOf n
  if 384 ≤ n || !causeReal b s cause then b else substBegin e n cause (causeTaken s b)

/-- SUBST_START. -/
def execSubstStart (n : Nat) (cause : SubstCause) (s : State) : Host.Outcome State Fault Refusal :=
  bodyStep (substStart n cause) s

/-- The bench site that takes the place of a site (R443). -/
def chooseBench (b : Body) (old : Nat) : Option Nat :=
  let free := (List.range 24).filter fun i => b.benchFree (384 + i) && !bitOf (b.field oMpSubst 24 24) i
  let col := old % 24
  let pick := match free.find? fun i => i / 3 == col / 3 with
    | some i => some i
    | none => free.foldl (fun best i =>
        match best with
        | none => some i
        | some j => if (if i ≤ col then col - i else i - col) < (if j ≤ col then col - j else j - col) then some i else some j) none
  pick.map (· + 384)

/-- A bank brought to a power state by RESTORE, which waits for its wakes (R225, R444). -/
def restorePower (s k tgt : Nat) (b : Body) : Body :=
  let p : Pwr := match tgt with | 0 => .off | 1 => .retain | _ => .on
  storeBank s k { (b.site s).bank k with pwr := p, target := tgt } b

/-- RESTORE of an image (R444): power (none where TL_BANK_PWR refuses the value, R232), the banks of MASK through the site window, then owner, guest and lock. -/
def restoreImage (e : Env) (s mask : Nat) (hdr : List Byte) (data : List Byte) (b : Body) : Body :=
  let pw := ofBytes (hdr.drop 32 |>.take 8)
  let banks := (List.range 32).filter (bitOf mask)
  let bad := (List.range 32).any fun k => bitsOf pw (2 * k) 2 == 3
  let b := if bad then csrError e .mp (oTl s 0x228) b
    else foldN 32 (fun k b => if bitsOf pw (2 * k) 2 = 0 then b else restorePower s k 2 b) b
  let b := overList banks.zipIdx (fun (k, i) b =>
    let pa := siteBase s + k * 0x10000
    match physWrite e .west pa ((data.drop (i * 0x10000)).take 0x10000) b with
    | (.refused s k, b) => ownerError e 10 s k pa b
    | (_, b) => b) b
  let b := if bad then b else foldN 32 (fun k b => restorePower s k (bitsOf pw (2 * k) 2) b) b
  foldN 32 (fun k b =>
    let m := (hdr.getD k 0).toNat
    bankOwnWrite .mp s (k + bitsOf m 0 3 * 2 ^ 8 + bitsOf m 4 3 * 2 ^ 12 + bitsOf m 3 1 * 2 ^ 16) e b) b

/-- TL_CORE_PC, then START (R442). -/
def restoreCore (s pc : Nat) (b : Body) : Body :=
  coreStart s (b.modSite s fun t => { t with core := { t.core with pc := BitVec.ofNat 21 (pc / 4 * 4), shLeft := 0, dslot := none } })

/-- What RESTORE finds in the step-state table for a tile (R444): wait, nothing, or a header with MASK, PC and banks. -/
inductive StepImage where
  | wait
  | none_
  | found (mask pc : Nat) (hdr data : List Byte)
  deriving DecidableEq, Repr

/-- The bytes of a read that delivered any, with what the MP reads of a poisoned line (R276). -/
def VaAcc.bytes? : VaAcc → Option (List Byte)
  | .ok l => some l
  | .poison l => some l
  | _ => none

/-- The step-state table of the tile's squad (R444). -/
def stepImage (e : Env) (n : Nat) (b : Body) : StepImage × Body :=
  match b.squadOf n with
  | none => (.none_, b)
  | some q =>
    if !b.flag (oMpStep q) 0 then (.none_, b)
    else
      let rd := fun (va k : Nat) (b : Body) => vaRead e q whoMp va k b
      match rd (b.field (oMpStep q) 12 36 * 4096 + 16 * n) 16 b with
      | (.stall, b) => (.wait, b)
      | (x, b) =>
        let w := ofBytes (x.bytes?.getD [])
        if !bitOf w 127 then (.none_, b)
        else
          let mask := bitsOf w 64 32
          let size := 0x10000 * ((List.range 32).countP (bitOf mask))
          match rd (bitsOf w 0 48) (256 + size) b with
          | (.stall, b) => (.wait, b)
          | (x, b) => match x.bytes? with
            | some l => (.found mask (bitsOf w 96 21) (l.take 256) (l.drop 256), b)
            | none => (.none_, b)

/-- Every bank ON and owned by the mesh remote port, the core stopped (R444). -/
def restoreBare (s : Nat) (b : Body) : Body := foldN 32 (fun k b => restorePower s k 2 b) b

/-- RESTORE (R444) at the site that PLACE chose: what the step-state table holds for the tile, once it can be read. -/
def substRestore (e : Env) (n : Nat) (b : Body) : Body :=
  let s := b.siteOf n
  match stepImage e n b with
  | (.wait, b) => { b with dev.mp.restoring := true }
  | (img, b) =>
    let b := { b with dev.mp.restoring := false }
    match img with
    | .found mask pc hdr data => restoreCore s pc (restoreImage e s mask hdr data b)
    | _ => restoreBare s b

/-- PLACE (R443), then RESTORE: from DRAIN, whose old site is reset, or again. -/
def substChoose (e : Env) (n : Nat) (b : Body) : Body :=
  let old := b.siteOf n
  match chooseBench b old with
  | none =>
    let b := ((tileReset e old b).setField oMpSubst 18 3 3).setEvent oMpSubst 23 1
    if b.flag oMpCtl 2 then retireDevice e 2 0 b else b
  | some new =>
    let b := renameSite e n new b
    let b := if old < 384 then { b with dev.homes := b.dev.homes ++ [old] } else b
    substRestore e n ((b.setField oMpSubst 0 9 new).setField oMpSubst 18 3 4)

/-- SUBST_PLACE_RESTORE (R442 to R444): DRAIN waits for DRAINED; then PLACE and RESTORE, which goes on once the table can be
read; not while a call-up holds the tile (R479). -/
def substPlace (e : Env) (b : Body) : Body :=
  match b.dev.mp.substs with
  | [] => b
  | (n, _) :: _ =>
    let st := b.substState
    if (callOver b n).isSome then b
    else if (st = 1 || st = 2) && !b.flag (oSubst n) 30 then b.setField oMpSubst 18 3 2
    else if st = 1 || st = 2 || st = 3 then substChoose e n b
    else if st = 4 && b.dev.mp.restoring then substRestore e n b
    else b

/-- SUBST_PLACE_RESTORE. -/
def execSubstPlaceRestore (s : State) : Host.Outcome State Fault Refusal := bodyStep substPlace s

/-- SUBST_DONE (R442). STATE stays DONE until the next substitution begins (log entry 37). -/
def substDone (e : Env) (b : Body) : Body :=
  match b.dev.mp.substs with
  | [] => b
  | (n, _) :: rest =>
    if b.substState != 4 || b.dev.mp.restoring then b
    else
      let b := substNotice (b.squadOf n) none ((clearHold e n b).setField oMpSubst 22 1 1)
      substFront ({ b with dev.mp.substs := rest }.setField oMpSubst 18 3 5)

/-- SUBST_DONE. -/
def execSubstDone (s : State) : Host.Outcome State Fault Refusal := bodyStep substDone s

end Sys2Proof.Machine
end

