-- ==== Sys2Proof/Machine/HostOps.lean ====
section
/-! DEFINITION. Host queues (R488 to R492), firmware images (R465, R495, R496) and the MP-only reset (R464), as the shared
operations behind their rows. -/
namespace Sys2Proof.Machine

-- Queues (R488 to R490).

/-- Queue pairs of a function (R488). -/
def queuePairs (f : Nat) : Nat := if f = 0 then 1016 else 120

/-- Does the queue pair exist? -/
def queueOk (p f k : Nat) : Bool := p < 2 && f ≤ 8 && k < queuePairs f

/-- Where a host window begins in the device physical map (R37, R484). -/
def windowBase (p : Nat) : Nat := if p = 0 then 0x4000_0000_0000 else 0x6000_0000_0000

/-- SQ_HEAD, SQ_TAIL, CQ_TAIL and CQ_HEAD of a queue pair (R489). -/
def sqHead (b : Body) (p f k : Nat) : Nat := b.field (oHiQ p f k 3) 0 16
def sqTail (b : Body) (p f k : Nat) : Nat := b.field (oHiQ p f k 2) 0 16
def cqTail (b : Body) (p f k : Nat) : Nat := b.field (oHiQ p f k 3) 32 16
def cqHead (b : Body) (p f k : Nat) : Nat := b.field (oHiQ p f k 2) 32 16

/-- Entries of the submission and of the completion ring. -/
def sqSize (b : Body) (p f k : Nat) : Nat := 2 ^ b.field (oHiQ p f k 0) 8 4
def cqSize (b : Body) (p f k : Nat) : Nat := 2 ^ b.field (oHiQ p f k 1) 8 4

/-- QUEUE_DOORBELL (R490): a value outside its ring, or one that moves SQ_TAIL past SQ_HEAD, stops the queue. -/
def doorbell (p f k : Nat) (tail : Bool) (v : Nat) (b : Body) : Body :=
  let o := oHiQ p f k 2
  let put := b.setField o (if tail then 0 else 32) 16 v
  let n := if tail then sqSize b p f k else cqSize b p f k
  let h := sqHead b p f k
  let t := sqTail b p f k
  let past := tail && n ≤ (t + n - h % n) % n + (v + n - t % n) % n
  if !queueOk p f k then b
  else if !b.flag (oHiQ p f k 0) 0 then put
  else if n ≤ v || past then b.setField (oHiQ p f k 3) 17 1 1
  else put

/-- Does a command in progress belong to the queue? -/
def HiCmd.ofQueue (p f k : Nat) (c : HiCmd) : Bool := c.port == p && c.fn == f && c.k == k

/-- The command in progress on a queue. -/
def Body.cmd (b : Body) (p f k : Nat) : Option HiCmd := b.dev.hi.cmds.find? (HiCmd.ofQueue p f k)

/-- The commands in progress changed. -/
def Body.modCmds (b : Body) (g : List HiCmd → List HiCmd) : Body := { b with dev.hi.cmds := g b.dev.hi.cmds }

/-- A completion entry (R488). -/
def completion (head cid status result : Nat) (phase : Bool) : Nat :=
  head % 2 ^ 16 + cid % 2 ^ 16 * 2 ^ 16 + status % 2 ^ 8 * 2 ^ 32 + b2n phase * 2 ^ 40 + result % 2 ^ 64 * 2 ^ 64

/-- The completion of a queue's command, once the ring has room and the link is up (R490). -/
def complete (c : HiCmd) (b : Body) : Body :=
  let p := c.port
  let f := c.fn
  let k := c.k
  let n := cqSize b p f k
  let t := cqTail b p f k % n
  match c.done with
  | none => b
  | some (st, res) =>
    if (t + 1) % n = cqHead b p f k % n || !hostUp b p then b
    else
      let o := oHiQ p f k 1
      let head := (sqHead b p f k + 1) % sqSize b p f k
      let odd := b.dev.hi.wrapped.contains o
      let at_ := windowBase p + b.field o 12 33 * 4096 + 16 * t
      let b := { b with mem := b.mem.setNum at_ 16 (completion head c.cid st res (!odd)) }
      let b := if t + 1 = n then
          { b with dev.hi.wrapped := if odd then b.dev.hi.wrapped.erase o else b.dev.hi.wrapped ++ [o] } else b
      let b := ((b.setField (oHiQ p f k 3) 32 16 ((t + 1) % n)).setField (oHiQ p f k 3) 0 16 head).setField (oHiQ p f k 3) 16 1 0
      (b.modCmds fun l => l.filter fun x => !HiCmd.ofQueue p f k x).raise p f (8 + k)

/-- What a command needs to know: its queue, CID, and arguments. -/
structure CmdCtx where
  port : Nat
  fn : Nat
  k : Nat
  entry : Nat
  deriving DecidableEq, Repr

/-- ARGn of a submission entry (R488). -/
def CmdCtx.arg (c : CmdCtx) (n : Nat) : Nat := bitsOf c.entry (64 + 64 * n) 64

/-- May the function command logical tile n: the PF, or the VF whose squad the tile is in (R491)? -/
def cmdTileOk (b : Body) (c : CmdCtx) (n : Nat) : Bool :=
  c.fn == 0 || (match squadOfFn b c.port c.fn with | some q => b.squadOf n == some q | none => false)

/-- Does the MP serve the queue now: enabled, not stopped, and T3 not shed (R462, R490)? -/
def queueServed (b : Body) (p f k : Nat) : Bool :=
  queueOk p f k && b.flag (oHiQ p f k 0) 0 && !b.flag (oHiQ p f k 3) 17 && !shed b 3

/-- A command that has its outcome. -/
def endCmd (p f k st res : Nat) (b : Body) : Body :=
  let b := b.modCmds fun l => l.map fun x => if HiCmd.ofQueue p f k x then { x with done := some (st, res) } else x
  match b.cmd p f k with
  | some c => complete c b
  | none => b

/-- The row of one command (R490, R491): `take` checks and starts the entry at the queue's head, `poll` asks again for one
that has not finished. Each answers STATUS and RESULT, or nothing while the command goes on. -/
def cmdRow (opcs : Nat → Bool) (take : Env → CmdCtx → Body → Option (Nat × Nat) × Body)
    (poll : Env → HiCmd → Body → Option (Nat × Nat)) (p f k : Nat) (e : Env) (b : Body) : Body :=
  if !queueServed b p f k then b
  else match b.cmd p f k with
    | some c =>
      if !opcs c.opc then b
      else if c.done.isSome then complete c b
      else if c.hit then endCmd p f k 4 0 b
      else match poll e c b with
        | some (st, res) => endCmd p f k st res b
        | none => b
    | none =>
      if sqHead b p f k = sqTail b p f k || !hostUp b p then b
      else
        let entry := b.mem.num (windowBase p + b.field (oHiQ p f k 0) 12 33 * 4096 + 64 * (sqHead b p f k % sqSize b p f k)) 64
        if !opcs (bitsOf entry 0 8) then b
        else
          let ctx : CmdCtx := { port := p, fn := f, k := k, entry := entry }
          let cmd : HiCmd := { port := p, fn := f, k := k, opc := bitsOf entry 0 8, cid := bitsOf entry 16 16,
                               tile := bitsOf entry 128 9, hit := false, done := none }
          let b := (b.setField (oHiQ p f k 3) 16 1 1).modCmds fun l => l ++ [cmd]
          if bitsOf entry 8 8 != 0 || bitsOf entry 32 32 != 0 || bitsOf entry 256 256 != 0 then endCmd p f k 3 0 b
          else match take e ctx b with
            | (some (st, res), b) => endCmd p f k st res b
            | (none, b) => b

/-- Commands on a tile that a reset has hit complete BUSY (R501). -/
def hitCmds (n : Nat) (b : Body) : Body :=
  b.modCmds fun l => l.map fun c => if c.opc = 2 && c.tile = n then { c with hit := true } else c

-- Firmware (R465, R495, R496). Where an image holds what is checked is open (log entry 4).

/-- Flash offset of a slot (R495). -/
def slotBase (slot : Nat) : Nat := 0x10_0000 + 0x100_0000 * slot

/-- The bytes of a slot. -/
def slotImage (b : Body) (slot : Nat) : List Byte := b.flash.bytes (slotBase slot) 0x100_0000

/-- The slot that the directory prefers (R495; log entry 46). -/
def preferredSlot (b : Body) : Nat := b.flash.num 4 4 % 2

/-- Is an image accepted under R496? -/
def acceptImage (fuse : Fuses) (l : List Byte) : Bool :=
  Config.imageAccepted l && bitsOf (Config.imageRevision l).toNat 16 16 == fuse.rrevSi.toNat

/-- An image written to a slot, with its version in the directory; the slot is preferred once all of it is written. -/
def writeSlot (slot : Nat) (l : List Byte) (b : Body) : Body :=
  let m := (b.flash.clear (slotBase slot) 0x100_0000).write (slotBase slot) l
  let m := m.setNum (8 + 4 * slot) 4 (Config.imageVersion l).toNat
  { b with flash := (m.setNum 0 4 0x5A46_4C01).setNum 4 4 slot }

-- The MP-only reset (R464, R492, R500).

/-- An MP-only reset: MP memory, STATE, SHED and MP_LOAD are cleared, and T0 service begins again; commands in progress
complete RESTARTED (R492). The substitutions under way and what is recorded for them stay (R445; log entry 48). -/
def mpOnlyReset (b : Body) : Body :=
  let b := foldN 4 (fun t b => setShed (t + 3) false b) b
  let b := ((b.setField oMpStat 0 3 (if b.retired then 4 else 1)).setCsr oMpLoad 0).bumpSat oMpWdt 16 16
  let b := { b with dev.mp.suspects := [], dev.mp.kicks := 0, dev.mp.hiRun := 0, dev.mp.loRun := 0,
                    dev.mp.powers := [], dev.mp.dutyRun := 0, dev.mp.retires := [], dev.mp.told := [],
                    dev.mp.heldSeq := [], dev.mp.hbTick := b.dev.ticks, dev.mp.ces := [], dev.mp.agreePhase := 0,
                    dev.mp.agreeRound := 0, dev.mp.agreeMin := 0, dev.mp.agreeMax := 0, dev.mp.agreePend := [],
                    dev.mp.agreeWait := false }
  overList b.dev.hi.cmds (fun c b => endCmd c.port c.fn c.k 8 0 b) b

/-- The image that MP_FW_STAGE names (R465): as much as a slot holds and HBM has; a line that cannot be read reads all ones
and records an address error (R276). -/
def stagedImage (e : Env) (b : Body) : List Byte × Body :=
  let pa := b.field oMpFwStage 12 28 * 4096
  let (l, good, b) := hbmRead e pa (min 0x100_0000 (hbmTop - pa)) b
  (l, if good then b else addrError e 10 pa b)

/-- A live update (R465): the checks, then an MP-only reset into the image. -/
def updateNow (e : Env) (b : Body) : Body :=
  let (l, b) := stagedImage e b
  if Config.imageAccepted l && (Config.imageRevision l).toNat == b.field (oDg 0) 0 32 then
    let v := (Config.imageVersion l).toNat
    let b := if v = b.field oMpFw 0 32 then b else markDirty b
    (mpOnlyReset (b.setField oMpFw 32 32 v)).setField oMpFw 0 32 v
  else b.setEvent oMpStat 11 1

/-- What waited for a tier goes on once the tier is not shed (R462). -/
def mpCatchUp (e : Env) (b : Body) : Body :=
  let b := if b.dev.mp.updAsked && !shed b 3 then updateNow e { b with dev.mp.updAsked := false } else b
  if b.dev.mp.agreeAsked && !shed b 4 then agreeNew e { b with dev.mp.agreeAsked := false } else b

end Sys2Proof.Machine
end

