-- ==== Sys2Proof/Machine/ResetOps.lean ====
section
/-! DEFINITION. Resets (R499 to R501) and boot (R495 to R498), as the shared operations behind their rows. -/
namespace Sys2Proof.Machine

/-- The resets that boot the device. -/
inductive BootKind where
  | cold
  | warm
  | device
  deriving DecidableEq, Repr

/-- DEV_STAT.LAST_RESET (R502). -/
def BootKind.code : BootKind → Nat
  | .cold => 0
  | .warm => 1
  | .device => 2

/-- Register words that a reset keeps (R500, R502). -/
def BootKind.keeps (k : BootKind) (o : Nat) : Bool :=
  match k with
  | .cold => false
  | _ =>
    o = oDevId || o = oDevSerial || o = oDevStrap || o = oDevTherm || (0x100 ≤ o && o < 0x1A0) ||
    (0x100000 ≤ o && o < 0x200000) || (0x1000000 ≤ o && o < 0x1C00000) || (0x8000000 ≤ o && o < 0x9000000) ||
    (k == .device && (0x300000 ≤ o && o < 0x300020))

/-- The site that the fuses give logical tile n (R24). -/
def fuseSite (f : Fuses) (n : Nat) : Nat := f.subst.get n n % 512

/-- The tile sites as fused (R29, R228): only those that the fuses change need to be listed. -/
def bootSites (f : Fuses) : Tab Site :=
  if f.subst = [] then []
  else (List.range 408).filterMap fun s =>
    let named := (List.range 384).any fun n => fuseSite f n == s
    if named = decide (s < 384) then none else some (s, Site.initial named)

/-- Register words that the fuses and straps give (R16, R24, R430, R502). -/
def fuseWords (f : Fuses) (b : Body) : Body :=
  let b := b.setField (oDg 0) 16 16 f.rrevSi.toNat
  let b := b.setField oDevDbg 0 1 (b2n f.dbgLand)
  let b := foldN 10 (fun p b => b.setCsr (oFb p 0x20) ((f.mac.get 0 p).toNat % 2 ^ 48)) b
  overList f.subst (fun x b => if x.1 < 384 then b.setField (oSubst x.1) 0 9 (fuseSite f x.1) else b) b

/-- What only a cold reset loads (R500, R502); a die's SLOT is its number. -/
def fuseIdentity (f : Fuses) (b : Body) : Body :=
  let b := (b.setCsr oDevId (putBits f.devId.toNat 8 24 0)).setCsr oDevSerial f.serial.toNat
  let b := b.setCsr oDevStrap (f.strap.toNat &&& 0xFF80)
  foldN 20 (fun i b => b.setCsr (oDevUid 0 + 8 * i)
    (if i % 2 = 0 then putBits (putBits (f.uid.get 0 i).toNat 0 52 0) 52 4 (i / 2) else (f.uid.get 0 i).toNat)) b

/-- The memory that a reset leaves: the host's is not the device's; HBM is kept through self-refresh but by a cold reset;
every SRAM word reads zero (R228, R497, R500). -/
def BootKind.memory (k : BootKind) (m : Mem) : Mem :=
  m.filter fun c => 0x4000_0000_0000 ≤ c.1 || (k != .cold && c.1 < hbmTop)

/-- The device after the reset itself, before boot (R500). -/
def BootKind.clear (k : BootKind) (f : Fuses) (b : Body) : Body :=
  let cold := k == .cold
  let d := b.dev
  let stat := k.code * 16 + (if cold then 0 else b.field oDevStat 7 1 * 128)
  let b : Body := { b with
    mem := k.memory b.mem,
    dev := { Dev.initial with
      sites := bootSites f, csr := d.csr.filter (fun x => k.keeps x.1), poison := if cold then [] else d.poison,
      scrub := if cold then [] else d.scrub, repairs := d.repairs, benchBad := d.benchBad, homes := d.homes,
      fab := { Fabric.initial with wire := d.fab.wire }, tr := { TrSt.initial with capSeq := if cold then 0 else d.tr.capSeq },
      mp := { MpSt.initial with temps := if cold then [] else d.mp.temps },
      hi := { HiSt.initial with msix := if k == .device then d.hi.msix else [],
                                tapStatus := if cold then 0 else d.hi.tapStatus, tapData := if cold then 0 else d.hi.tapData },
      ticks := d.ticks } }
  let b := fuseWords f (b.setCsr oDevStat stat)
  if cold then fuseIdentity f b else b

/-- Boot stops (R498, R502). -/
def bootFail (cause : Nat) (b : Body) : Body := (b.setField oDevStat 0 3 5).setField oDevStat 8 8 cause

/-- The slot that boot takes: the preferred one, else the other (R496). -/
def bootSlot (f : Fuses) (b : Body) : Option Nat :=
  let s := preferredSlot b
  if acceptImage f (slotImage b s) then some s
  else if acceptImage f (slotImage b (1 - s)) then some (1 - s) else none

/-- A retired home site's logical tile gets a bench site (R443, R497). -/
def bootSubst (e : Env) (home : Nat) (b : Body) : Body :=
  if 384 ≤ home || b.siteOf home != home then b
  else match chooseBench b home with
    | some new => ((b.setField (oSubst home) 0 9 new).setSite home (Site.initial false)).setSite new (Site.initial true)
    | none =>
      let b := (setHold home b).setEvent oMpSubst 23 1
      if b.flag oMpCtl 2 then retireDevice e 2 0 b else b

/-- The repair record applied (step 5 of R497). -/
def applyRepairs (e : Env) (k : BootKind) (b : Body) : Body :=
  let b := if k == .cold then overList b.dev.repairs (fun x b =>
      (b.setCsr (oHm (x.1 / 8) (0x40 + 8 * (x.1 % 8))) (2 ^ 63 + x.2)).setField (oHm (x.1 / 8) 0) 12 4
        (b.field (oHm (x.1 / 8) 0) 12 4 - 1)) b else b
  overList b.dev.homes (bootSubst e) (b.setField oMpSubst 24 24 b.dev.benchBad)

/-- Training of one HBM stack (step 6 of R497, R503). A stack that is LOST stays so until a cold reset. -/
def trainStack (e : Env) (bad : List Nat) (k : Nat) (b : Body) : Body :=
  if stackLost b k then b
  else if bad.contains k then loseStack e k 0 false b
  else ((b.setField (oHm k 0) 8 2 0).setCsr (oHm k 0x200) (Config.stackId k 0).toNat).setCsr (oHm k 0x208) (Config.stackId k 1).toNat

/-- Boot after the reset itself (R418, R419, R497, R498). -/
def boot (k : BootKind) (env : BootEnv) (e : Env) (b : Body) : Body :=
  if k == .cold && b.field oDevStrap 7 2 = 3 then bootFail 1 b
  else match env.alignFail with
    | some d =>
      let b := b.setField (oDg 0x28) 1 9 d
      bootFail 2 (recordErr e { kind := 7, sev := 3, site := if d < 408 then d else 0, info := d } b)
    | none =>
      let b := b.setField (oDg 0x28) 0 1 1
      let b := if k == .device then b else (b.setField (oHiPort 0) 0 3 1).setField (oHiPort 1) 0 3 1
      if !env.flashOk then bootFail 4 b
      else match bootSlot e.fuse b with
        | none => bootFail 3 b
        | some slot =>
          let img := slotImage b slot
          let b := (b.setField oDevStat 3 1 slot).setField (oDg 0) 0 16 (Config.imageRevision img).toNat
          let b := b.setField oMpFw 0 32 (Config.imageVersion img).toNat
          let b := foldN 12 (fun n b => b.setField (oHm n 0x100) 32 1 0) (applyRepairs e k b)
          let b := foldN 12 (trainStack e env.badStacks) b
          (b.setField oDevStat 0 3 4).setField oMpStat 0 3 (if b.retired then 4 else 1)

/-- A reset that boots the device. -/
def bootReset (k : BootKind) (env : BootEnv) (f : Fuses) (t : TimeBase) (b : Body) : TimeBase × Body :=
  let t := if k == .cold then TimeBase.initial else t
  (t, boot k env { time := t, fuse := f } (k.clear f b))

/-- The queues and MSI-X state of a function (R499, R500). A command of its that runs writes no completion (R501). -/
def functionReset (p f : Nat) (b : Body) : Body :=
  let lo := 0x310000 + (9 * p + f) * 0x8000
  let inside := fun o => lo ≤ o && o < lo + 0x8000
  { b with dev.csr := b.dev.csr.filter (fun x => !inside x.1),
           dev.hi.msix := b.dev.hi.msix.filter (fun x => !(x.1 == p && x.2.1 == f)),
           dev.hi.wrapped := b.dev.hi.wrapped.filter (fun o => !inside o),
           dev.hi.cmds := b.dev.hi.cmds.filter (fun c => !(c.port == p && c.fn == f)) }

/-- A tile reset of a site from outside a substitution: commands on its tile end BUSY (R500, R501). -/
def resetSite (e : Env) (s : Nat) (b : Body) : Body :=
  match b.tileOf s with
  | some n => hitCmds n (tileReset e s b)
  | none => tileReset e s b

/-- Did boot stop because a crossing could not be aligned? The device then stays in reset until a cold reset (R419). -/
def alignFailed (b : Body) : Bool := b.field oDevStat 0 3 == 5 && b.field oDevStat 8 8 == 2

/-- A call-up that a squad reset ends (R479): the tiles go back to the donor, and every range tile takes the reset. No bump
does this: a squad reset changes no entry and no epoch (R304, R500). -/
def endCallup (e : Env) (q : Nat) (b : Body) : Body :=
  if b.callState q = 0 then b
  else
    let tiles := callTiles b q
    let donor := callDonor b q
    let b := if called b q then overList tiles (fun n b => { (b.setCsr (oSqTile n) (8 + donor)) with
        dev.eff := b.dev.eff.set (oSqTile n) (BitVec.ofNat 64 (8 + donor)) }) b else b
    let b := overList tiles (fun n b => resetSite e (b.siteOf n) b) (b.setCallState q 0)
    releaseHeld e (fun h => tiles.any h.waitsFor) (b.raiseSquad q 3)

/-- A squad reset (R479, R500). -/
def squadReset (e : Env) (q : Nat) (b : Body) : Body :=
  let b := overList ((List.range 8).filter fun k => k == q || callDonor b k == q) (endCallup e) b
  let b := overList (b.squadTiles q) (fun n b => resetSite e (b.siteOf n) b) b
  let b := (b.setCsr (oSq q 0x20) 0).setCsr (oSqStat q) 0
  let b := b.modSq fun x => { x with waits := x.waits.filter (· != q), carried := x.carried.filter (· != q) }
  b.modPg fun p => { p with faults := p.faults.set q [], extra := p.extra.set q [],
                            stalls := p.stalls.filter fun k => !(100 ≤ k.1 && k.2.1 == q) }

end Sys2Proof.Machine
end

