-- ==== Sys2Proof/Machine/Reset.lean ====
section
/-! DEFINITION. The rows of the resets (R497 to R501), of power and heat (R508, R509), of the TAP's reset (R504) and of the
management link (R505). -/
namespace Sys2Proof.Machine

/-- COLD_RESET (R497). -/
def execColdReset (env : BootEnv) (s : State) : Host.Outcome State Fault Refusal := timeStep (bootReset .cold env) s

/-- Is PERST# of the port chosen to reset the device (R499, R502)? -/
def perstChosen (b : Body) (p : Nat) : Bool := p < 2 && (b.field oDevStrap 7 2 == 2 || b.field oDevStrap 7 2 == p)

/-- WARM_RESET (R499): PERST# of a chosen port. -/
def warmReset (p : Nat) (env : BootEnv) (f : Fuses) (t : TimeBase) (b : Body) : TimeBase × Body :=
  if perstChosen b p && !alignFailed b then bootReset .warm env f t b else (t, b)

/-- WARM_RESET. -/
def execWarmReset (p : Nat) (env : BootEnv) (s : State) : Host.Outcome State Fault Refusal := timeStep (warmReset p env) s

/-- Is the agent host privilege? -/
def isPf : Agent → Bool
  | .host _ f => f == 0
  | _ => false

/-- A write of DEV_RST_CTL (R499, R501, R502): of the resets that it asks for, the broadest takes effect. `which` says
which of them the row is about: DEVICE (bit 31), SQUAD (30) or TILE (29). A device that stays in reset takes none (R419). -/
def rstCtl (ag : Agent) (v : Nat) (env : BootEnv) (which : Nat) (f : Fuses) (t : TimeBase) (b : Body) : TimeBase × Body :=
  let e : Env := { time := t, fuse := f }
  let refused := (t, csrError e ag oDevRst b)
  if alignFailed b then (t, b)
  else if bitOf v 31 then
    if which != 31 then (t, b)
    else if !isPf ag || bitsOf v 32 8 != 0xD5 then refused
    else bootReset .device env f t b
  else if bitOf v 30 then
    if which != 30 then (t, b) else if !hostOrMp ag then refused else (t, squadReset e (bitsOf v 9 3) b)
  else if bitOf v 29 then
    if which != 29 then (t, b)
    else if !hostOrMp ag || 407 < bitsOf v 0 9 then refused
    else (t, resetSite e (bitsOf v 0 9) b)
  else (t, b)

/-- No boot happens: the environment of a reset that is not a device reset. -/
def noBoot : BootEnv := { alignFail := none, badStacks := [], flashOk := true }

/-- DEVICE_RESET (R499). -/
def execDeviceReset (ag : Agent) (v : Word64) (env : BootEnv) (s : State) : Host.Outcome State Fault Refusal :=
  timeStep (rstCtl ag v.toNat env 31) s

/-- TILE_RESET (R500). -/
def execTileReset (ag : Agent) (v : Word64) (s : State) : Host.Outcome State Fault Refusal :=
  timeStep (rstCtl ag v.toNat noBoot 29) s

/-- SQUAD_RESET (R500). -/
def execSquadReset (ag : Agent) (v : Word64) (s : State) : Host.Outcome State Fault Refusal :=
  timeStep (rstCtl ag v.toNat noBoot 30) s

/-- PORT_PERST (R499): PERST# of a port that is not chosen resets its controller: link, queues and MSI-X state. -/
def portPerst (p : Nat) (b : Body) : Body :=
  if 2 ≤ p || perstChosen b p then b else (foldN 9 (functionReset p) b).setCsr (oHiPort p) 0

/-- PORT_PERST. -/
def execPortPerst (p : Nat) (s : State) : Host.Outcome State Fault Refusal := bodyStep (fun _ b => portPerst p b) s

/-- FUNCTION_LEVEL_RESET (R499): of a PF, that function; of a VF, also the squad that names it. -/
def flr (p f : Nat) (e : Env) (b : Body) : Body :=
  if 2 ≤ p || 8 < f then b
  else
    let q := if f = 0 then none else squadOfFn b p f
    let b := functionReset p f b
    match q with
    | some q => squadReset e q b
    | none => b

/-- FUNCTION_LEVEL_RESET. -/
def execFunctionLevelReset (p f : Nat) (s : State) : Host.Outcome State Fault Refusal := bodyStep (flr p f) s

-- Power (R508).

/-- POWER_SAMPLE (R508): the 10 ms average and DUTY. -/
def powerSample (watts : Nat) (b : Body) : Body :=
  let l := (b.dev.mp.powers ++ [watts]).drop (b.dev.mp.powers.length + 1 - 10)
  let avg := min (l.sum / l.length) 0xFFFF
  let limit := b.field oDevPwr 0 16
  let duty := b.field oDevPwr 24 5
  let low := 100 * avg < 95 * limit && !b.flag oDevTherm 0
  let run := if low then b.dev.mp.dutyRun + 1 else 0
  let duty' := if b.flag oDevTherm 2 then 4
    else if limit < avg || b.flag oDevTherm 0 then max 4 (duty - 1)
    else if run = 10 then min 16 (duty + 1) else duty
  let b := { b with dev.mp.powers := l, dev.mp.dutyRun := run % 10 }
  (b.setField oDevPwr 32 16 avg).setField oDevPwr 24 5 duty'

/-- POWER_SAMPLE. -/
def execPowerSample (watts : Nat) (s : State) : Host.Outcome State Fault Refusal :=
  bodyStep (fun _ b => powerSample watts b) s

/-- PWR_BRAKE (R508, R509). -/
def pwrBrake (on : Bool) (b : Body) : Body :=
  let b := b.setField oDevTherm 2 1 (b2n on)
  if on then b.setField oDevPwr 24 5 4 else b

/-- PWR_BRAKE. -/
def execPwrBrake (asserted : Bool) (s : State) : Host.Outcome State Fault Refusal :=
  bodyStep (fun _ b => pwrBrake asserted b) s

-- Heat (R509).

/-- Throttle, Limit and Trip of a sensor, in °C (R434, R509). -/
def thermalLimits (sensor : Nat) : Nat × Nat × Nat := if sensor < 40 then (100, 105, 115) else (90, 95, 105)

/-- A sensor's reading kept; HOTTEST, SENSOR and THROTTLE show all of them. -/
def takeReading (sensor temp : Nat) (b : Body) : Body :=
  let b := { b with dev.mp.temps := b.dev.mp.temps.set sensor temp }
  let hot := b.dev.mp.temps.foldl (fun (h : Nat × Nat) x => if h.2 < x.2 then x else h) (0, 0)
  let any := b.dev.mp.temps.any fun x => (thermalLimits x.1).1 ≤ x.2
  ((b.setField oDevTherm 56 8 (min hot.2 255)).setField oDevTherm 48 8 hot.1).setField oDevTherm 0 1 (b2n any)

/-- THERMAL_LIMIT (R434, R509): a reading; one that reaches Limit is recorded. -/
def thermalLimit (sensor temp : Nat) (e : Env) (b : Body) : Body :=
  if 52 ≤ sensor then b
  else
    let lim := (thermalLimits sensor).2.1
    let was := lim ≤ b.dev.mp.temps.get 0 sensor
    let (inj, b) := check (detOf 12 sensor) 0 b
    let b := takeReading sensor temp b
    if (lim ≤ temp && !was) || inj.isSome then
      (recordErr e { kind := 0x0B, sev := 1, inj := inj.isSome, det := detOf 12 sensor, addr := sensor, info := temp } b).setEvent
        oDevTherm 1 7
    else b

/-- THERMAL_LIMIT. -/
def execThermalLimit (sensor temp : Nat) (s : State) : Host.Outcome State Fault Refusal :=
  bodyStep (thermalLimit sensor temp) s

/-- THERMAL_TRIP (R509). -/
def thermalTrip (sensor temp : Nat) (e : Env) (b : Body) : Body :=
  if 52 ≤ sensor || temp < (thermalLimits sensor).2.2 then b
  else retireDevice e 3 sensor ((thermalLimit sensor temp e b).send .thermtrip)

/-- THERMAL_TRIP. -/
def execThermalTrip (sensor temp : Nat) (s : State) : Host.Outcome State Fault Refusal :=
  bodyStep (thermalTrip sensor temp) s

-- The TAP's reset and the management link.

/-- TRST_ASSERT (R504): the TAP is reset. -/
def execTrstAssert (s : State) : Host.Outcome State Fault Refusal :=
  bodyStep (fun _ b => { b with dev.hi.tapStatus := 0, dev.hi.tapData := 0 }) s

/-- What an answer reports (R505): a request kind's number and the values it carries. -/
def pldmFacts (k : PldmKind) (e : Env) (b : Body) : Nat × List Byte × Body :=
  match k with
  | .fru =>
    (1, leBytes e.fuse.serial.toNat 8 ++ (List.range 20).flatMap (fun i => leBytes (b.csr (oDevUid 0 + 8 * i)) 8) ++
      ((List.range 24).flatMap fun i => leBytes (b.csr (oHm (i / 2) (0x200 + 8 * (i % 2)))) 8) ++
      leBytes (b.csr (oDg 0)) 4 ++ b.flash.bytes 8 8 ++ b.flash.bytes 0x220_0000 0x10_0000, b)
  | .sensor id =>
    if id < 52 then (2, leBytes (b.dev.mp.temps.get 0 id) 2, b)
    else if id = 52 then (2, leBytes (b.field oDevPwr 32 16) 2, b)
    else let (v, b) := b.freshValue; (2, leBytes v.toNat 8, b)
  | .mpState => (3, leBytes (b.field oMpStat 0 3) 1, b)
  | .retiredState => (4, leBytes (b.field oDevStat 7 1) 1, b)
  | .fwUpdate => (5, [], b)
  | .other => (6, [], b)

/-- PLDM_REQUEST (R505): on auxiliary power alone only FRU requests are answered; a firmware update is served at T3, writes
the slot that is not preferred, and shows at the next cold reset. -/
def pldmRequest (k : PldmKind) (aux : Bool) (req : List Byte) (e : Env) (b : Body) : Body :=
  if aux && k != .fru then b.send (.pldm (Config.pldmBody 0 req))
  else if k = .fwUpdate && shed b 3 then b
  else
    let b := if k = .fwUpdate && acceptImage e.fuse req then writeSlot (1 - preferredSlot b) req b else b
    let (n, facts, b) := pldmFacts k e b
    b.send (.pldm (Config.pldmBody n (req ++ facts)))

/-- PLDM_REQUEST. -/
def execPldmRequest (kind : PldmKind) (auxOnly : Bool) (req : List Byte) (s : State) : Host.Outcome State Fault Refusal :=
  bodyStep (pldmRequest kind auxOnly req) s

end Sys2Proof.Machine
end

