-- ==== Sys2Proof/Machine/Squad.lean ====
section
/-! DEFINITION. Squads: their configuration (R468, R481), call-ups (R475 to R479), windows (R472), and the frames of the
open ports that reach them (R350, R424, R473). -/
namespace Sys2Proof.Machine

/-- Does the word keep the rules over all squads: no function named twice, shares of at most 65,536 (R468)? -/
def squadsOk (b : Body) (q w : Nat) : Bool :=
  let word := fun k => if k = q then w else b.csr (oSq k 0)
  let valid := (List.range 8).filter fun k => bitOf (word k) 63
  let thr := valid.filter fun k => !bitOf (word k) 62
  !valid.any (fun k => valid.any fun j => k != j && bitsOf (word k) 52 5 == bitsOf (word j) 52 5) &&
    (thr.map fun k => bitsOf (word k) 0 16).sum ≤ 65536 && (thr.map fun k => bitsOf (word k) 16 16).sum ≤ 65536

/-- Does a tile name squad q in SQ_TILEn, in effect or held (R468)? -/
def squadNamed (b : Body) (q : Nat) : Bool :=
  (List.range 384).any fun n => b.squadOf n == some q || bitsOf (b.csr (oSqTile n)) 0 4 == 8 + q

/-- SQ_CFG_WRITE (R468). -/
def sqCfgWrite (e : Env) (ag : Agent) (q v : Nat) (b : Body) : Body :=
  let o := oSq q 0
  if 8 ≤ q then b
  else if !mayWrite ag o then csrError e ag o b
  else
    let w := match regSpec o with | some r => r.apply (b.csr o) v | none => 0
    let moves := bitsOf w 62 1 != b.field o 62 1 || bitsOf w 52 5 != b.field o 52 5
    if !squadsOk b q w || (moves && squadNamed b q) then csrError e ag o b else plainWrite e ag o v b

/-- SQ_CFG_WRITE. -/
def execSqCfgWrite (ag : Agent) (q : Nat) (v : Word64) (s : State) : Host.Outcome State Fault Refusal :=
  bodyStep (fun e b => sqCfgWrite e ag q v.toNat b) s

/-- CALLUP (R475). -/
def callup (ag : Agent) (q : Nat) (e : Env) (b : Body) : Body :=
  if 8 ≤ q then b
  else if mayCommand b ag q then
    let b := callStart e q b
    if b.dev.sq.waits.contains q && !b.dev.sq.asked.contains q then b.modSq fun x => { x with asked := x.asked ++ [q] } else b
  else csrError e ag (oSq q 0x30) b

/-- CALLUP. -/
def execCallup (ag : Agent) (q : Nat) (s : State) : Host.Outcome State Fault Refusal := bodyStep (callup ag q) s

/-- CALLUP_CALLED. -/
def execCallupCalled (q : Nat) (s : State) : Host.Outcome State Fault Refusal := bodyStep (fun e b => callCalled e q b) s

/-- RETURN (R477, R481): only in state CALLED. -/
def callReturn (ag : Agent) (q : Nat) (e : Env) (b : Body) : Body :=
  if 8 ≤ q then b
  else guarded e ag (oSq q 0x30) b (if b.callState q = 2 then callForce e q b else b)

/-- RETURN. -/
def execCallReturn (ag : Agent) (q : Nat) (s : State) : Host.Outcome State Fault Refusal := bodyStep (callReturn ag q) s

/-- CALLUP_RETURNED. -/
def execCallupReturned (q : Nat) (s : State) : Host.Outcome State Fault Refusal := bodyStep (fun e b => callReturned e q b) s

/-- DEFICIT_WINDOW_END (R472): the window's shortfalls in bytes, and whether what was carried into it has been repaid. -/
def windowEnd (q hbm fab : Nat) (repaid : Bool) (b : Body) : Body :=
  if 8 ≤ q || !b.squadValid q || b.squadDeadline q then b
  else
    let b := if b.dev.sq.carried.contains q && !repaid then b.bumpSat (oSq q 0x20) 48 16 else b
    let b := b.modSq fun x => { x with carried := x.carried.filter (· != q) }
    if hbm = 0 && fab = 0 then b
    else
      let mib := fun n => min (cdiv n (2 ^ 20)) (2 ^ 24 - 1)
      let b := (b.setField (oSq q 0x20) 0 24 (mib hbm)).setField (oSq q 0x20) 24 24 (mib fab)
      sqEvent q 5 (b.modSq fun x => { x with carried := x.carried ++ [q] })

/-- DEFICIT_WINDOW_END. -/
def execDeficitWindowEnd (q : Nat) (hbm : Nat) (fab : Nat) (repaid : Bool) (s : State) : Host.Outcome State Fault Refusal :=
  bodyStep (fun _ b => windowEnd q hbm fab repaid b) s

/-- The receive rule of an open port that a UDP port matches (R350). -/
def rxRule (b : Body) (p : Nat) (udp : Nat) : Option Nat :=
  (List.range 16).find? fun n =>
    let w := b.eff (oFb p (0x100 + 8 * n))
    bitOf w 0 && bitsOf w 16 16 == udp

/-- OPEN_PORT_RECEIVE (R350, R423, R424). -/
def openPortReceive (p : Nat) (phy : PhyIn) (addr : BitVec 128) (udp : BitVec 16) (payload : List Byte) (e : Env) (b : Body) :
    Body :=
  if !(p = 8 || p = 9) || !b.carries p then b
  else
    let (ok, inj, b) := phyIn p phy b
    if !ok then crcFail e p inj b
    else if addr.toNat != b.csr (oFb p 0x80) * 2 ^ 64 + b.csr (oFb p 0x88) then rxDrop p 48 16 b
    else match rxRule b p udp.toNat with
      | none => rxDrop p 48 16 b
      | some n =>
        let chosen := b.flag (oDg 0x30) n
        let f : RxFrame := { squad := bitsOf (b.eff (oFb p (0x100 + 8 * n))) 1 3, rule := n, time := e.now, bytes := payload }
        if b.flag (oDg 8) 1 then if chosen then b.bumpSat (oDg 0x10) 48 16 else handOver e f b
        else handOver e f (if chosen then capture e (p - 8) f b else b)

/-- OPEN_PORT_RECEIVE. -/
def execOpenPortReceive (port : Nat) (addr : BitVec 128) (udp : BitVec 16) (payload : List Byte) (s : State)
    (phy : PhyIn := PhyIn.clean) : Host.Outcome State Fault Refusal := bodyStep (openPortReceive port phy addr udp payload) s

/-- INJECT_FEED (R424): the record at the ring's tail is handed to its squad as though its frame had arrived. -/
def injectFeed (e : Env) (b : Body) : Body :=
  let tail := capTail b
  if !b.flag (oDg 8) 1 || tail = capHead b then b
  else match vaRead e (trSquad b) whoCapture (capVa b tail) 64 b with
    | (.ok h, b) =>
      let w := ofBytes h
      let len := bitsOf w 136 16
      if bitOf w 152 then b.setField (oDg 0x48) 6 24 0
      else match vaRead e (trSquad b) whoCapture (capVa b (tail + 64)) len b with
        | (.ok p, b) =>
          let b := b.setField (oDg 0x48) 6 24 ((tail + 64 + pad64 len) % capSize b / 64)
          handOver e { squad := bitsOf w 132 3, rule := bitsOf w 128 4, time := e.now, bytes := p } b
        | (_, b) => b
    | (_, b) => b

/-- INJECT_FEED. -/
def execInjectFeed (s : State) : Host.Outcome State Fault Refusal := bodyStep injectFeed s

end Sys2Proof.Machine
end

