-- ==== Sys2Proof/Machine/TrainOps.lean ====
section
/-! DEFINITION. What the fused update units compute: the record of R402, its checks (R403), one element of each rule
(R404, R405), the exact sums of R406, and the accesses of one line of a record (R297, R298, R403). -/
namespace Sys2Proof.Machine

/-- A field of an update record (R402). -/
def UpdRun.field (u : UpdRun) (lo len : Nat) : Nat := bitsOf u.rcd lo len

/-- OP of the record. -/
def UpdRun.op (u : UpdRun) : Nat := u.field 0 4
/-- WFMT of the record. -/
def UpdRun.wfmt (u : UpdRun) : Nat := u.field 4 4
/-- TID of the record. -/
def UpdRun.tid (u : UpdRun) : Nat := u.field 16 16
/-- STEP of the record. -/
def UpdRun.step (u : UpdRun) : Nat := u.field 64 48
/-- CTX of the record. -/
def UpdRun.ctx (u : UpdRun) : Nat := u.field 121 3
/-- RVA of the record. -/
def UpdRun.rva (u : UpdRun) : Nat := u.field 384 48
/-- NELEM of the record. -/
def UpdRun.nelem (u : UpdRun) : Nat := u.field 448 40

/-- Does an OP use the weights? -/
def updUsesP (op : Nat) : Bool := op ≤ 7 || op == 9 || op == 10
/-- Does it use the first moment? -/
def updUsesM1 (op : Nat) : Bool := [1, 2, 5, 6, 7, 9].contains op
/-- Does it use the second moment? -/
def updUsesM2 (op : Nat) : Bool := [3, 4, 5, 6, 7, 9].contains op
/-- Does it use the result area? -/
def updUsesR (op : Nat) : Bool := 7 ≤ op && op ≤ 9
/-- Does it write the weights? -/
def updWritesP (op : Nat) : Bool := op ≤ 7 || op == 10
/-- Does it write the moments that it uses? -/
def updWritesM (op : Nat) : Bool := op ≤ 7

/-- A VA field that an OP uses must be aligned, and one that it does not use zero (R403). -/
def vaOk (used : Bool) (va align : Nat) : Bool := if used then va % align == 0 else va == 0

/-- Are the reserved bits of a record zero (R402)? -/
def UpdRun.rsvOk (u : UpdRun) : Bool :=
  [(15, 1), (124, 4), (176, 16), (240, 16), (304, 16), (368, 16), (432, 16), (488, 24), (552, 24), (832, 128), (968, 55)].all
    fun (lo, len) => u.field lo len == 0

/-- Is the record BAD (R403)? -/
def UpdRun.bad (u : UpdRun) (b : Body) : Bool :=
  11 ≤ u.op || !(1 ≤ u.wfmt && u.wfmt ≤ 3) || !u.rsvOk || 384 ≤ u.field 112 9 ||
  !vaOk (updUsesP u.op) (u.field 128 48) 4096 || !vaOk true (u.field 192 48) 4096 ||
  !vaOk (updUsesM1 u.op) (u.field 256 48) 4096 || !vaOk (updUsesM2 u.op) (u.field 320 48) 4096 ||
  !vaOk (updUsesR u.op) u.rva 16 ||
  u.nelem == 0 || u.nelem % 2048 != 0 || 2 ^ 43 < u.field 512 40 + u.nelem || u.ctx != trSquad b

-- Arithmetic (R404, R405): values are FP64 encodings, and flags gather.

/-- A value with the flags that making it set. -/
abbrev Fl := Nat × FFlags

/-- The next operation, its flags gathered. -/
def Fl.then (x : Fl) (f : Nat → Nat × FFlags) : Fl := let r := f x.1; (r.1, x.2 ||| r.2)

/-- A weight or an FP32 operand widened to FP64; a BF16 subnormal is read as zero (R53, R404). -/
def widen64 (c v : Nat) : Fl :=
  if c = 3 && bitsOf v 7 8 == 0 && bitsOf v 0 7 != 0 then (bitsOf v 15 1 * 2 ^ 63, fDenorm) else convertElem c 0 v .rne

/-- A product with an exact factor, rounded once (R405: `1 − β` is exact). -/
def mulExact (x : Num) (a : Nat) : Nat × FFlags :=
  let (y, f) := readElem 0 a
  let (r, g) := arith 0 (x.isNan || y.isNan) (Num.mul x y) .rne
  (r, f ||| g)

/-- Two results joined by an operation. -/
def fl2 (op : Nat → Nat → Sel → Nat × FFlags) (x y : Fl) : Fl :=
  let r := op x.1 y.1 .rne
  (r.1, x.2 ||| y.2 ||| r.2)

/-- Three results joined by a fused multiply-add. -/
def flFma (x y z : Fl) : Fl :=
  let r := fpFma 0 x.1 y.1 z.1 .rne
  (r.1, x.2 ||| y.2 ||| z.2 ||| r.2)

/-- A square root. -/
def flSqrt (x : Fl) : Fl := x.then fun a => fpSqrt 0 a .rne

/-- A value turned in sign. -/
def flNeg (x : Fl) : Fl := (fpNeg 0 x.1, x.2)

/-- The FP32 constants of a record, widened, and the norm ratio of LAMB_APPLY (R402, R405). -/
structure UpdConst where
  eta : Fl
  lambda : Fl
  beta1 : Fl
  beta2 : Fl
  b1 : Num
  b2 : Num
  eps : Fl
  clip : Fl
  c1 : Fl
  c2 : Fl
  r : Fl
  deriving DecidableEq, Repr

/-- `1 − β`, exactly. -/
def oneMinus (v : Nat) : Num := (Num.add Num.one (readElem 1 v).1.negate).1

/-- `r = sqrt(a) / sqrt(b)`, 1 where either is zero (R405). -/
def normRatio (a b : Nat) : Fl :=
  let (x, f) := readElem 0 a
  let (y, g) := readElem 0 b
  if x.isZero || y.isZero then (0x3FF0_0000_0000_0000, f ||| g)
  else fl2 (fpDiv 0) (flSqrt (a, 0)) (flSqrt (b, 0))

/-- The constants of a record whose result area holds `na` and `nb`. -/
def UpdRun.consts (u : UpdRun) (na nb : Nat) : UpdConst where
  eta := widen64 1 (u.field 576 32)
  lambda := widen64 1 (u.field 608 32)
  beta1 := widen64 1 (u.field 640 32)
  beta2 := widen64 1 (u.field 672 32)
  b1 := oneMinus (u.field 640 32)
  b2 := oneMinus (u.field 672 32)
  eps := widen64 1 (u.field 704 32)
  clip := widen64 1 (u.field 736 32)
  c1 := widen64 1 (u.field 768 32)
  c2 := widen64 1 (u.field 800 32)
  r := if u.op = 7 then normRatio na nb else (0x3FF0_0000_0000_0000, 0)

/-- What one element becomes, in FP64: weight, moments, and `u` of LAMB. -/
structure UpdOut where
  w : Fl
  m : Fl
  v : Fl
  u : Fl
  deriving DecidableEq, Repr

/-- `m′ = fma(β1, m, b1 × d)`. -/
def adamM (k : UpdConst) (m d : Fl) : Fl := flFma k.beta1 m (d.then (mulExact k.b1))

/-- `v′ = fma(β2, v, b2 × (d × d))`. -/
def adamV (k : UpdConst) (v d : Fl) : Fl := flFma k.beta2 v ((fl2 (fpMul 0) d d).then (mulExact k.b2))

/-- `q = (m′ × C1) / (sqrt(v′ × C2) + ε)`. -/
def adamQ (k : UpdConst) (m v : Fl) : Fl :=
  fl2 (fpDiv 0) (fl2 (fpMul 0) m k.c1) (fl2 (fpAdd 0) (flSqrt (fl2 (fpMul 0) v k.c2)) k.eps)

/-- The rule of R405 on one element: the old weight, gradient and moments, widened. -/
def updRule (op : Nat) (k : UpdConst) (w gg m v : Fl) : UpdOut :=
  let g := fl2 (fpMul 0) gg k.clip
  let dl := flFma k.lambda w g
  let by_ := fun (x : Fl) => flFma (flNeg k.eta) x w
  let root := fun (v' : Fl) => fl2 (fpDiv 0) dl (fl2 (fpAdd 0) (flSqrt v') k.eps)
  match op with
  | 0 => { w := by_ dl, m := m, v := v, u := dl }
  | 1 => let m' := flFma k.beta1 m dl
         { w := by_ m', m := m', v := v, u := m' }
  | 2 => let m' := flFma k.beta1 m dl
         { w := by_ (flFma k.beta1 m' dl), m := m', v := v, u := m' }
  | 3 => let v' := flFma dl dl v
         { w := by_ (root v'), m := m, v := v', u := dl }
  | 4 => let v' := adamV k v dl
         { w := by_ (root v'), m := m, v := v', u := dl }
  | 5 => let m' := adamM k m dl
         let v' := adamV k v dl
         let q := adamQ k m' v'
         { w := by_ q, m := m', v := v', u := q }
  | 6 => let m' := adamM k m g
         let v' := adamV k v g
         let u := flFma k.lambda w (adamQ k m' v')
         { w := by_ u, m := m', v := v', u := u }
  | _ => let m' := adamM k m g
         let v' := adamV k v g
         let u := flFma k.lambda w (adamQ k m' v')
         { w := flFma (flNeg (fl2 (fpMul 0) k.eta k.r)) u w, m := m', v := v', u := u }

-- Exact sums of squares (R406).

/-- A sum of squares as it builds up: in units of 2^−298, the weight of the last bit of the square of an FP32 value. -/
structure SquareSum where
  sum : Nat
  nan : Bool
  inf : Bool
  deriving DecidableEq, Repr

/-- The empty sum. -/
def SquareSum.zero : SquareSum := { sum := 0, nan := false, inf := false }

/-- The square of a number added exactly. -/
def SquareSum.add (s : SquareSum) (x : Num) : SquareSum :=
  match x with
  | .nan => { s with nan := true }
  | .inf _ => { s with inf := true }
  | .fin _ m e _ => { s with sum := s.sum + shiftNat (m * m) (2 * e + 298) }

/-- The sum rounded once to FP64. -/
def SquareSum.result (s : SquareSum) : Nat :=
  if s.nan then canonNan 0 else if s.inf then encInf 0 false else (roundFloat 0 (.fin false s.sum (-298) false) .rne).1

-- Lines (R297, R298, R403).

/-- How a line of the command is reached. -/
inductive UpdAcc where
  | at_ (pa : Nat)
  | wait
  | bad (status : Nat)
  deriving DecidableEq, Repr

/-- The translation of a line for a fused update unit (R298, R403). -/
def updReach (b : Body) (q va : Nat) (write : Bool) : UpdAcc :=
  match xlate b q va write with
  | .phys pa => if pa < hbmTop then .at_ pa else .bad 2
  | .transit => .wait
  | .fault _ => .bad 2
  | .refused =>
    let k := (walk b q va).kind
    if write && va < 2 ^ 48 && (k == .hbm || k == .host || k == .transit) then .bad 3 else .bad 2

/-- Elements in one line of the parameter range; NORMSQ, which has none, goes by lines of the gradients. -/
def UpdRun.perLine (u : UpdRun) : Nat := if updUsesP u.op then 512 / fmtWidth u.wfmt else 16

/-- The arrays of one parameter line of a record: 0 weights, 1 gradients, 2 and 3 the moments: where it lies, its bytes,
and whether it is read and written. -/
structure UpdArr where
  id : Nat
  va : Nat
  bytes : Nat
  read : Bool
  write : Bool
  deriving DecidableEq, Repr

/-- The arrays that line `g` of a record touches. -/
def UpdRun.arrays (u : UpdRun) (g : Nat) : List UpdArr :=
  let n := u.perLine
  let wb := n * fmtWidth u.wfmt / 8
  let at_ := fun lo k => u.field lo 48 + g * k
  (if updUsesP u.op then [{ id := 0, va := at_ 128 wb, bytes := wb, read := u.op != 10, write := updWritesP u.op }] else []) ++
  [{ id := 1, va := at_ 192 (4 * n), bytes := 4 * n, read := true, write := false }] ++
  (if updUsesM1 u.op then [{ id := 2, va := at_ 256 (4 * n), bytes := 4 * n, read := true, write := updWritesM u.op }] else []) ++
  (if updUsesM2 u.op then [{ id := 3, va := at_ 320 (4 * n), bytes := 4 * n, read := true, write := updWritesM u.op }] else [])

/-- The 64-byte lines of an array part, each with its write flag. -/
def UpdArr.lines (a : UpdArr) : List Nat := (List.range (a.bytes / 64)).map fun i => a.va + 64 * i

/-- How each line of an array part can be accessed by the unit whose channel port is `st` (R276, R297, R298, R403, R435): its
address, or the status that it ends with. Reading it checks its ECC. -/
def updLineStat (e : Env) (st : Stop) (q : Nat) (a : UpdArr) (va : Nat) (b : Body) : UpdAcc × Body :=
  match updReach b q va a.write with
  | .at_ pa =>
    let z := Stop.channel (channelSite pa)
    let (gone, b) := meshLost e st z b
    let (back, b) := if a.read && !gone then meshLost e z st b else (false, b)
    if gone || back then (.bad 4, b)
    else if a.read then
      let (ok, b) := checkLine e (pa / 64 * 64) b
      (if ok then .at_ pa else .bad 4, b)
    else (if stackLost b (hbmPlace pa).1 then .bad 4 else .at_ pa, b)
  | x => (x, b)

/-- The channel port of the unit that runs parameter line `g` of a record: that of the stack that holds the line (R297);
NORMSQ goes by the gradients. -/
def updHome (u : UpdRun) (g : Nat) (b : Body) : Stop :=
  match updReach b u.ctx (((u.arrays g).headD { id := 0, va := 0, bytes := 0, read := false, write := false }).va) false with
  | .at_ pa => .channel (channelSite pa)
  | _ => .west

/-- The lines of one parameter line's arrays with how each can be accessed. -/
def updStats (e : Env) (u : UpdRun) (g : Nat) (b : Body) : List (UpdArr × Nat × UpdAcc) × Body :=
  (u.arrays g).foldl (fun acc a =>
    a.lines.foldl (fun (l, b) va =>
      let (x, b) := updLineStat e (updHome u g b) u.ctx a va b
      (l ++ [(a, va, x)], b)) acc) ([], b)

/-- Is a line reached? -/
def UpdAcc.ok : UpdAcc → Bool
  | .at_ _ => true
  | _ => false

/-- The status of a line that cannot be accessed. -/
def UpdAcc.err : UpdAcc → Option Nat
  | .bad s => some s
  | _ => none

/-- The physical address of a line; 0 where it is not reached. -/
def UpdAcc.pa : UpdAcc → Nat
  | .at_ p => p
  | _ => 0

end Sys2Proof.Machine
end

