-- ==== Sys2Proof/Machine/Train.lean ====
section
/-! DEFINITION. Micro-batches (R395 to R397), update records (R399 to R406) and the parameter home (R399). -/
namespace Sys2Proof.Machine

-- Micro-batches.

/-- TR_MB_CFG, TR_MB_RING, TR_MB_STEP, TR_MB_CTL and TR_MB_STAT. -/
def oMbCfg : Nat := oTr 0x80
def oMbStat : Nat := oTr 0xA0

/-- VA of a slot of the admission ring (R396). -/
def mbSlotVa (b : Body) (i : Nat) : Nat := b.field (oTr 0x88) 10 38 * 1024 + 16 * (i % 64)

/-- MB_START (R395). -/
def mbStart (e : Env) (ag : Agent) (b : Body) : Body :=
  if !mayWrite ag (oTr 0x98) || b.flag oMbStat 48 then csrError e ag (oTr 0x98) b
  else (b.setField oMbStat 0 13 0).setField oMbStat 48 1 1

/-- The word of an admitted slot (R396). -/
def mbSlotWord (b : Body) (i : Nat) : Nat :=
  b.field (oTr 0x90) 0 48 + i % 2 ^ 12 * 2 ^ 48 + 2 ^ 61 + b.field oMbCfg 16 16 * 2 ^ 64

/-- MB_ADMIT (R395): the next micro-batch is admitted where its conditions hold. -/
def mbAdmit (e : Env) (b : Body) : Body :=
  let i := b.field oMbStat 0 13
  let cred := b.field oMbCfg 16 16
  let free := b.field oMbStat 32 16
  if !b.flag oMbStat 48 || b.retired || b.field oMbCfg 0 13 ≤ i || free < cred then b
  else match vaRead e (trSquad b) whoBatch (mbSlotVa b i) 16 b with
    | (.ok old, b) =>
      if ofBytes old != 0 then b
      else match vaWrite e (trSquad b) whoBatch (mbSlotVa b i) (leBytes (mbSlotWord b i) 16) b with
        | (.ok _, b) =>
          let b := ((b.setField oMbStat 32 16 (free - cred)).setField oMbStat 0 13 (i + 1)).setField oMbStat 16 7
            (b.field oMbStat 16 7 + 1)
          let b := if i + 1 = b.field oMbCfg 0 13 then b.setField oMbStat 48 1 0 else b
          let n := b.field oMbCfg 48 9
          if n < 384 then b.advanceTile n (b.field oMbCfg 57 4) else b
        | (_, b) => b
    | (_, b) => b

/-- One slot scanned: an admitted slot found done gives back its credits and is cleared (R397). -/
def mbScanSlot (e : Env) (i : Nat) (b : Body) : Body :=
  match vaRead e (trSquad b) whoBatch (mbSlotVa b i) 16 b with
  | (.ok v, b) =>
    let w := ofBytes v
    if bitOf w 61 && bitOf w 62 then
      match vaWrite e (trSquad b) whoBatch (mbSlotVa b i) (leBytes 0 16) b with
      | (.ok _, b) =>
        (b.setField oMbStat 32 16 (b.field oMbStat 32 16 + bitsOf w 64 16)).setField oMbStat 16 7 (b.field oMbStat 16 7 - 1)
      | (_, b) => b
    else b
  | (_, b) => b

/-- MB_SCAN (R397). -/
def mbScan (e : Env) (b : Body) : Body := if b.retired then b else foldN 64 (mbScanSlot e) b

/-- MB_START. -/
def execMbStart (ag : Agent) (s : State) : Host.Outcome State Fault Refusal := bodyStep (fun e b => mbStart e ag b) s
/-- MB_ADMIT. -/
def execMbAdmit (s : State) : Host.Outcome State Fault Refusal := bodyStep mbAdmit s
/-- MB_KICK. -/
def execMbKick (ag : Agent) (s : State) : Host.Outcome State Fault Refusal :=
  bodyStep (fun e b => guarded e ag (oTr 0x98) b (mbScan e b)) s
/-- MB_SCAN. -/
def execMbScan (s : State) : Host.Outcome State Fault Refusal := bodyStep mbScan s

-- Update records.

/-- TR_UPD_STAT. -/
def oUpdStat : Nat := oTr 0xD0

/-- The slot number at the head of the update ring (R401, R412). -/
def updHead (b : Body) : Nat := b.field oUpdStat 16 12 % 2 ^ b.field (oTr 0xC0) 60 4

/-- VA of a slot of the update ring. -/
def updSlotVa (b : Body) (slot : Nat) : Nat := b.field (oTr 0xC0) 7 41 * 128 + 128 * slot

/-- The update record changed. -/
def Body.modUpd (b : Body) (f : UpdRun → UpdRun) : Body := { b with dev.tr.upd := b.dev.tr.upd.map f }

/-- The runtime reads the head slot (R401). -/
def updLook (e : Env) (b : Body) : Body :=
  if b.dev.tr.upd.isSome || b.flag oUpdStat 1 || b.retired then b
  else match vaRead e (trSquad b) whoUpdate (updSlotVa b (updHead b)) 128 b with
    | (.ok v, b) =>
      let w := ofBytes v
      if bitOf w 1023 then
        let b := { b with dev.tr.upd := some { slot := updHead b, rcd := w, key := b.csr (oTr 0), started := false, ran := false, status := 0 } }
        b.setField oUpdStat 2 1 (b2n (bitOf w 8 && !kickDue e.now (bitsOf w 32 32)))
      else b
    | (_, b) => b

/-- BUSY of the twelve fused update units (R300). -/
def fuuBusy (v : Nat) (b : Body) : Body := foldN 12 (fun k b => b.setField (oHm k 0x100) 32 1 v) b

/-- UPDATE_START (R399, R401, R403): at its kickoff; a record that fails its checks has nothing left to run. -/
def updateStart (e : Env) (b : Body) : Body :=
  match b.dev.tr.upd with
  | none => b
  | some u =>
    let koen := u.field 8 1 == 1
    let k := u.field 32 32
    if u.started || b.retired || (koen && !kickDue e.now k) then b
    else
      let b := if koen && kickLate e.now k then b.setField oUpdStat 3 1 1 else b
      let b := if koen then b.launchAt e k else b
      let st := if u.bad b then 1 else if !b.flag (oTr 0x10) 0 && (u.op ≤ 7 || u.op == 9) then 5 else 0
      let b := b.modUpd fun u => { u with started := true, ran := st != 0, status := st, key := b.csr (oTr 0) }
      fuuBusy 1 ((b.setField oUpdStat 0 1 1).setField oUpdStat 2 1 0)

/-- One element as the record computes it: the encodings it writes to the weight and the moments, and the numbers that
the sums of R406 take. -/
structure UpdElem where
  w : Nat
  m : Nat
  v : Nat
  s0 : Num
  s1 : Num
  flags : FFlags
  deriving DecidableEq, Repr

/-- Element `i` of the record from the memory and the addresses of its lines (R404 to R406). -/
def updElem (u : UpdRun) (k : UpdConst) (mem : Mem) (at_ : Nat → Nat) (i : Nat) : UpdElem :=
  let rd := fun (id n : Nat) => mem.num (at_ id) n
  let gi := rd 1 4
  let idx := u.field 512 40 + i
  let sel := fun sub => elemSel (u.field 14 1 == 1) u.key 3 u.tid idx sub u.step
  if u.op = 8 then
    let (x, f) := readElem 1 gi
    { w := 0, m := 0, v := 0, s0 := x, s1 := Num.zero false, flags := f ||| fIf x.isNan fNanIn }
  else if u.op = 10 then
    let r := convertElem 1 u.wfmt gi (sel 0)
    { w := r.1, m := 0, v := 0, s0 := Num.zero false, s1 := Num.zero false, flags := r.2 }
  else
    let w := widen64 u.wfmt (rd 0 (fmtWidth u.wfmt / 8))
    let m := if updUsesM1 u.op then widen64 1 (rd 2 4) else (0, 0)
    let v := if updUsesM2 u.op then widen64 1 (rd 3 4) else (0, 0)
    let o := updRule u.op k w (widen64 1 gi) m v
    if u.op = 9 then
      let us := o.u.then fun a => convertElem 0 1 a .rne
      { w := 0, m := 0, v := 0, s0 := decFloat 0 w.1, s1 := decFloat 1 us.1, flags := w.2 ||| us.2 }
    else
      let nw := o.w.then fun a => convertElem 0 u.wfmt a (sel 0)
      let nm := if updUsesM1 u.op then o.m.then fun a => convertElem 0 1 a (sel 1) else (0, 0)
      let nv := if updUsesM2 u.op then o.v.then fun a => convertElem 0 1 a (sel 2) else (0, 0)
      { w := nw.1, m := nm.1, v := nv.1, s0 := Num.zero false, s1 := Num.zero false, flags := nw.2 ||| nm.2 ||| nv.2 }

/-- What the record has summed so far. -/
abbrev UpdSums := SquareSum × SquareSum

/-- One line of an array written by a unit, with its digests and the unit's count (R297, R300, R426). -/
def updWriteLine (u : UpdRun) (unit : Nat) (a : UpdArr) (pa first : Nat) (vals : List Nat) (b : Body) : Body :=
  let c := if a.id = 0 then u.wfmt else 1
  let sub := if a.id = 0 then 0 else a.id - 1
  let b := hbmWrite pa (vals.flatMap fun v => leBytes v (fmtWidth c / 8)) b
  let slots := digSlots b u.tid sub
  let b := overList vals.zipIdx (fun (v, j) b => digElem slots u.tid sub c u.step (u.field 512 40 + first + j) v b) b
  b.setField (oHm unit 0x100) 0 32 (b.field (oHm unit 0x100) 0 32 + 1)

/-- One parameter line of the record (R297): `mask` says which of its lines are written, in order. -/
def updLine (u : UpdRun) (k : UpdConst) (g mask : Nat) (ls : List (UpdArr × Nat × UpdAcc)) (acc : UpdSums × Body) :
    UpdSums × Body :=
  let b := acc.2
  let n := u.perLine
  let start := fun (id j : Nat) =>
    let w := (if id = 0 then fmtWidth u.wfmt else 32) / 8
    let o := w * j
    match (ls.filter fun x => x.1.id == id)[o / 64]? with
    | some x => x.2.2.pa + o % 64
    | none => 0
  let es := (List.range n).map fun j => updElem u k b.mem (fun id => start id j) (g * n + j)
  let unit := match ls.find? fun x => x.1.id == (if updUsesP u.op then 0 else 1) with
    | some x => (hbmPlace x.2.2.pa).1
    | none => 0
  let fl := es.foldl (fun f x => f ||| x.flags) (0 : FFlags)
  let b := b.setField (oHm unit 0x108) 0 6 (b.field (oHm unit 0x108) 0 6 ||| fl.toNat)
  let sums := es.foldl (fun (s : UpdSums) x => (s.1.add x.s0, s.2.add x.s1)) acc.1
  let b := overList ls.zipIdx (fun (x, i) b =>
    if x.1.write && x.2.2.ok && bitOf mask i then
      let per := 512 / (if x.1.id = 0 then fmtWidth u.wfmt else 32)
      let j0 := (x.2.1 - x.1.va) / 64 * per
      let vals := ((es.drop j0).take per).map fun y => if x.1.id = 0 then y.w else if x.1.id = 2 then y.m else y.v
      updWriteLine u unit x.1 x.2.2.pa (g * n + j0) vals b
    else b) b
  (sums, b)

/-- Can every line that is read of a parameter line be read? -/
def readsOk (ls : List (UpdArr × Nat × UpdAcc)) : Bool := ls.all fun x => !x.1.read || x.2.2.ok

/-- The result area as a line (R406). -/
def UpdRun.resultArea (u : UpdRun) : UpdArr :=
  { id := 4, va := u.rva, bytes := 64, read := u.op == 7, write := u.op != 7 }

/-- A record run to its end (R401, R403). Without an error every line is done. With one, the record ends: which of its
errors it meets first, and which of its other lines are written by then, is open, and the same for equal records (R413;
log entry 45). -/
def updRun (e : Env) (u : UpdRun) (b : Body) : Body :=
  let groups := List.range (u.nelem / u.perLine)
  let (stats, b) := groups.foldl (fun (acc, b) g => let (l, b) := updStats e u g b; (acc ++ [l], b)) (([] : List (List (UpdArr × Nat × UpdAcc))), b)
  let (ra, b) := if updUsesR u.op then updLineStat e (updHome u 0 b) u.ctx u.resultArea u.rva b else (.at_ 0, b)
  let errs := (stats.flatMap fun l => l.filterMap fun x => x.2.2.err) ++ (match ra.err with | some s => [s] | none => [])
  let k := u.consts (b.mem.num ra.pa 8) (b.mem.num (ra.pa + 8) 8)
  if errs = [] then
    let (sums, b) := (stats.zipIdx).foldl (fun acc (l, g) => updLine u k g (2 ^ 8 - 1) l acc)
      ((SquareSum.zero, SquareSum.zero), b)
    let b := if u.op = 8 then hbmWrite ra.pa (leBytes sums.1.result 8) b
      else if u.op = 9 then hbmWrite ra.pa (leBytes sums.1.result 8 ++ leBytes sums.2.result 8) b else b
    b.modUpd fun u => { u with ran := true, status := 0 }
  else
    let i := Config.updateError u.rcd % errs.length
    let (_, b) := (stats.zipIdx).foldl (fun (s, b) (l, g) =>
      let mask := Config.updateLines u.rcd g % 2 ^ 8
      if readsOk l && ra.ok && mask != 0 then updLine u k g mask l (s, b) else (s, b)) ((SquareSum.zero, SquareSum.zero), b)
    b.modUpd fun u => { u with ran := true, status := errs.getD i 2 }

/-- Does a line of the record lie in a page that is IN_TRANSIT (R298)? -/
def updWaits (u : UpdRun) (b : Body) : Bool :=
  (List.range (u.nelem / u.perLine)).any (fun g => (u.arrays g).any fun a =>
    a.lines.any fun va => updReach b u.ctx va a.write == .wait) ||
  (updUsesR u.op && updReach b u.ctx u.rva (u.op != 7) == .wait)

/-- The digested writes of a record, as `digWaits` takes them (R426). -/
def UpdRun.digRuns (u : UpdRun) : List (Nat × Nat × Nat × Nat) :=
  (if updWritesP u.op then [0] else []).map (fun k => (u.tid, k, u.field 512 40, u.nelem)) ++
  ((if updWritesM u.op && updUsesM1 u.op then [1] else []) ++ if updWritesM u.op && updUsesM2 u.op then [2] else []).map
    fun k => (u.tid, k, u.field 512 40, u.nelem)

/-- The row of one OP: it runs where a started record has that OP, no line waits for a move, and no digest waits. -/
def updRow (op : Nat) (e : Env) (b : Body) : Body :=
  match b.dev.tr.upd with
  | none => b
  | some u =>
    if !u.started || u.ran || u.op != op || updWaits u b || digWaits b u.digRuns then b
    else updRun e u b

/-- UPDATE_COMPLETE (R401, R403). -/
def updateComplete (e : Env) (b : Body) : Body :=
  match b.dev.tr.upd with
  | none => b
  | some u =>
    if !u.ran then b
    else
      let w := putBits (putBits u.rcd 960 8 u.status) 1023 1 0
      match vaWrite e (trSquad b) whoUpdate (updSlotVa b u.slot + 120) (leBytes (w >>> 960) 8) b with
      | (.stall, b) => b
      | (_, b) =>
        let n := u.field 112 9
        let b := if u.field 9 1 = 1 && n < 384 then b.advanceTile n (u.field 10 4) else b
        let b := b.setField oUpdStat 16 12 ((u.slot + 1) % 2 ^ b.field (oTr 0xC0) 60 4)
        let b := fuuBusy 0 ({ b with dev.tr.upd := none }.setField oUpdStat 0 1 0)
        if u.status = 0 then b
        else
          let b := if b.flag (oTr 0xD8) 63 then b
            else b.setCsr (oTr 0xD8) (2 ^ 63 + u.status * 2 ^ 48 + u.slot * 2 ^ 28 + u.op)
          trEvent 3 (b.setField oUpdStat 1 1 1)

/-- UPD_RESUME (R403): HALTED clears, and the runtime goes on with the next record. -/
def updResume (e : Env) (b : Body) : Body := updLook e (b.setField oUpdStat 1 1 0)

/-- UPD_KICK. -/
def execUpdKick (ag : Agent) (s : State) : Host.Outcome State Fault Refusal :=
  bodyStep (fun e b => guarded e ag (oTr 0xC8) b (updLook e b)) s
/-- UPD_POLL: the 1 µs have passed (log entry 8). -/
def execUpdPoll (s : State) : Host.Outcome State Fault Refusal := bodyStep updLook s
/-- UPD_RESUME. -/
def execUpdResume (ag : Agent) (s : State) : Host.Outcome State Fault Refusal :=
  bodyStep (fun e b => guarded e ag (oTr 0xC8) b (updResume e b)) s
/-- UPDATE_START. -/
def execUpdateStart (s : State) : Host.Outcome State Fault Refusal := bodyStep updateStart s
/-- SGD. -/
def execSgd (s : State) : Host.Outcome State Fault Refusal := bodyStep (updRow 0) s
/-- MOMENTUM. -/
def execMomentum (s : State) : Host.Outcome State Fault Refusal := bodyStep (updRow 1) s
/-- NESTEROV. -/
def execNesterov (s : State) : Host.Outcome State Fault Refusal := bodyStep (updRow 2) s
/-- ADAGRAD. -/
def execAdagrad (s : State) : Host.Outcome State Fault Refusal := bodyStep (updRow 3) s
/-- RMSPROP. -/
def execRmsprop (s : State) : Host.Outcome State Fault Refusal := bodyStep (updRow 4) s
/-- ADAM. -/
def execAdam (s : State) : Host.Outcome State Fault Refusal := bodyStep (updRow 5) s
/-- ADAMW. -/
def execAdamw (s : State) : Host.Outcome State Fault Refusal := bodyStep (updRow 6) s
/-- LAMB_APPLY. -/
def execLambApply (s : State) : Host.Outcome State Fault Refusal := bodyStep (updRow 7) s
/-- NORMSQ. -/
def execNormsq (s : State) : Host.Outcome State Fault Refusal := bodyStep (updRow 8) s
/-- LAMB_NORM. -/
def execLambNorm (s : State) : Host.Outcome State Fault Refusal := bodyStep (updRow 9) s
/-- CONVERT. -/
def execConvert (s : State) : Host.Outcome State Fault Refusal := bodyStep (updRow 10) s
/-- UPDATE_COMPLETE. -/
def execUpdateComplete (s : State) : Host.Outcome State Fault Refusal := bodyStep updateComplete s

-- The parameter home.

/-- Does the slot at the head of the update ring hold a record? A slot that cannot be reached holds none. -/
def updHeadValid (b : Body) : Bool :=
  match xlate b (trSquad b) (updSlotVa b (updHead b) + 127) false with
  | .phys pa => (b.mem.get pa).toNat / 128 == 1
  | _ => false

/-- Is the update ring idle (R399, R411)? -/
def updIdle (b : Body) : Bool := b.dev.tr.upd.isNone && !updHeadValid b

/-- TR_HOME_WRITE (R399). -/
def trHomeWrite (e : Env) (ag : Agent) (v : Nat) (b : Body) : Body :=
  if !mayWrite ag (oTr 0x10) || !updIdle b then csrError e ag (oTr 0x10) b else plainWrite e ag (oTr 0x10) v b

/-- TR_HOME_WRITE. -/
def execTrHomeWrite (ag : Agent) (v : Word64) (s : State) : Host.Outcome State Fault Refusal :=
  bodyStep (fun e b => trHomeWrite e ag v.toNat b) s

end Sys2Proof.Machine
end

