-- ==== Sys2Proof/Machine/CsrRead.lean ====
section
/-! DEFINITION. What a CSR reads as (R10, R13, R39): the registers whose value is a view of other state, and all others as
stored. -/
namespace Sys2Proof.Machine

-- Tile sites.

/-- TL_CORE_STAT (R209). -/
def CoreSt.statWord (c : CoreSt) : Nat :=
  b2n c.stopped + b2n c.issue.isSome * 2 ^ 2 + b2n c.priv * 2 ^ 3 + b2n c.wait.isSome * 2 ^ 4 + b2n c.double * 2 ^ 8 +
    b2n c.late * 2 ^ 9 + b2n c.dds * 2 ^ 10 + c.lastCause.toNat * 2 ^ 40

/-- TL_BANK_MAPm (R231). -/
def Site.mapWord (t : Site) (m : Nat) : Nat :=
  foldN 8 (fun j w =>
    let k := t.bank (8 * m + j)
    w + (k.owner % 8 + b2n k.lock * 2 ^ 3 + k.guest % 8 * 2 ^ 4) * 256 ^ j) 0

/-- TL_BANK_PWR (R232). -/
def Site.pwrWord (t : Site) : Nat := foldN 32 (fun k w => w + (t.bank k).target % 4 * 4 ^ k) 0

/-- Code of a power state in TL_BANK_PSTAT (R232). -/
def Pwr.code : Pwr → Nat
  | .off => 0
  | .retain => 1
  | .on => 2
  | .wakingRetain => 3
  | .wakingOff => 3

/-- TL_BANK_PSTAT (R232). -/
def Site.pstatWord (t : Site) : Nat := foldN 32 (fun k w => w + (t.bank k).pwr.code * 4 ^ k) 0

/-- TL_BANK_ECC (R233). -/
def BankEcc.word_ (x : BankEcc) : Nat :=
  x.ce.toNat + x.word % 2 ^ 13 * 2 ^ 32 + x.bank % 2 ^ 5 * 2 ^ 45 + b2n x.uev * 2 ^ 63

/-- Bits that the status registers of three engines share (R110, R161, R383): QDEPTH, IDLE, HALTED, KWAIT, LAST_STATUS. -/
def Eng.statWord (x : Eng) (kwait idle : Bool) : Nat :=
  x.q.length + b2n idle * 2 ^ 7 + b2n x.halted * 2 ^ 8 + b2n kwait * 2 ^ 9 + x.last % 256 * 2 ^ 32

/-- Is a part in progress: started or ended and not yet completed, or at the head with nothing to wait for (R266; log
entry 63)? -/
def SvSt.busy (x : SvSt) (kwait : Bool) : Bool :=
  (match x.part with | some p => p.started || p.ended.isSome | none => false) ||
    (!(x.part.isNone && x.q.isEmpty) && !x.halted && !kwait)

/-- SV_STAT (R266). -/
def SvSt.statWord (x : SvSt) (kwait : Bool) : Nat :=
  let run := match x.part with | some p => p.started && p.ended.isNone | none => false
  let wait := match x.part with | some p => p.waiting | none => false
  x.q.length + b2n run * 2 ^ 6 + b2n (!x.busy kwait) * 2 ^ 7 + b2n x.halted * 2 ^ 8 +
    b2n kwait * 2 ^ 9 + b2n wait * 2 ^ 10 + b2n x.nonfinite * 2 ^ 11 + b2n x.late * 2 ^ 12 + x.last % 256 * 2 ^ 32

/-- SV_SLOTs (R271). -/
def slotWord : Option SvSlot → Nat
  | none => 0
  | some k => k.base % 2 ^ 21 + bitsOf k.hdr 96 2 * 2 ^ 22 + bitsOf k.hdr 98 1 * 2 ^ 24 + bitsOf k.hdr 99 1 * 2 ^ 25 +
      bitsOf k.hdr 80 9 * 2 ^ 48 + 2 ^ 63

/-- TL_CP_STAT (R383). -/
def CpSt.statWord (x : CpSt) (kwait : Bool) : Nat :=
  x.eng.statWord kwait (x.eng.q.isEmpty && x.inFlight == 0) + x.inFlight * 2 ^ 10 + b2n x.late * 2 ^ 17

/-- A register of a site's TL window (R107, R159, R207, R229, R264, R381). TL_CORE_PC holds the next PC while the core is
stopped (R210): what it reads as while the core runs is open. -/
def siteRead (e : Env) (s r : Nat) (b : Body) : Nat × Body :=
  let t := b.site s
  let is (v : Nat) : Nat × Body := (v, b)
  if r = 0x108 then is t.core.statWord
  else if r = 0x110 then
    if t.core.stopped then is t.core.pc.toNat
    else let (v, b) := b.freshBelow (2 ^ 19); (v * 4, b)
  else if 0x180 ≤ r && r < 0x200 then is (t.core.cc.get 0 ((r - 0x180) / 8)).toNat
  else if 0x208 ≤ r && r < 0x228 then is (t.mapWord ((r - 0x208) / 8))
  else if r = 0x228 then is t.pwrWord
  else if r = 0x230 then is t.pstatWord
  else if r = 0x238 then is t.ecc.word_
  else if r = 0x1000 then is (b2n t.mx.accmode)
  else if r = 0x1010 then is (t.mx.eng.statWord (mxKwait e b s) (t.mx.idle (mxKwait e b s)))
  else if r = 0x1018 then is t.mx.groupWord
  else if r = 0x1020 then is t.mx.eng.flags.toNat
  else if r = 0x1028 then is t.mx.eng.err.toNat
  else if r = 0x1030 then is t.mx.passes.toNat
  else if r = 0x1038 then is t.mx.stalls.toNat
  else if r = 0x2008 then is (t.vx.eng.statWord (vxKwait e b s) (!t.vx.eng.busy (vxKwait e b s)))
  else if r = 0x2010 then is t.vx.eng.flags.toNat
  else if r = 0x2018 then is t.vx.eng.err.toNat
  else if r = 0x2020 then is t.vx.sumInfo
  else if r = 0x2028 then is t.vx.strips.toNat
  else if r = 0x2030 then is t.vx.stalls.toNat
  else if 0x2040 ≤ r && r < 0x2080 then is (t.vx.sums.get { value := 0, kind := 0, valid := false } ((r - 0x2040) / 8)).value.toNat
  else if 0x2080 ≤ r && r < 0x20C0 then is (t.vx.hdr.get 0 ((r - 0x2080) / 8)).toNat
  else if r = 0x3008 then is (t.sv.statWord (svKwait e b s))
  else if r = 0x3010 then is t.sv.flags.toNat
  else if r = 0x3018 then is t.sv.err.toNat
  else if r = 0x3020 then is t.sv.nfinfo.toNat
  else if r = 0x3028 then is t.sv.resid.toNat
  else if r = 0x3030 then is t.sv.runCycles.toNat
  else if r = 0x3038 then is t.sv.xwait.toNat
  else if r = 0x3040 then is t.sv.runs.toNat
  else if 0x3080 ≤ r && r < 0x3100 then is (slotWord (t.sv.slots.get none ((r - 0x3080) / 8)))
  else if r = 0x4008 then is (t.cp.statWord (cpKwait e b s))
  else if r = 0x4010 then is t.cp.eng.flags.toNat
  else if r = 0x4018 then is t.cp.eng.err.toNat
  else if r = 0x4020 then is t.cp.overlap.toNat
  else if r = 0x4028 then is (t.cp.asumDrop.toNat + t.cp.staleRx.toNat * 2 ^ 32)
  else is 0

-- The time base.

/-- Code of STATE (R319). -/
def TbMode.code : TbMode → Nat
  | .init => 0
  | .tracking => 1
  | .holdover => 2
  | .free => 3

/-- TB_STAT (R319). -/
def TimeBase.statWord (t : TimeBase) : Nat :=
  t.mode.code + b2n t.offsetAlarm * 2 ^ 5 + b2n t.stateEvt * 2 ^ 6 + b2n t.rootConflict * 2 ^ 7 +
    t.parent.toNat * 2 ^ 20 + t.hops.toNat * 2 ^ 24

/-- A register of the time base (R318, R319). -/
def tbRead (t : TimeBase) (b : Body) (o : Nat) : Nat :=
  if o = oTbTime then t.time.toNat
  else if o = oTbCfg then t.cfg.toNat
  else if o = oTbStat then t.statWord
  else if o = oTbOffset then t.offset.toNat
  else if o = oTbFreq then t.freq.toNat
  else if o = oTbLate then b.csr oTbLate
  else 0

-- The pager and the training runtime.

/-- PG_CTX_STAT of context q (R303). -/
def ctxStat (e : Env) (b : Body) (q : Nat) : Nat :=
  let w := b.csr (oPgCtx q 5)
  let d := b.dir q
  let busy := match d with | some x => x.started | none => false
  let wait := match d with | some x => x.budgetWait | none => false
  let kw := match d with
    | some x => !x.started && bitOf x.rcd 16 && !kickDue e.now (bitsOf x.rcd 32 32)
    | none => false
  bitsOf w 32 12 * 2 ^ 32 + bitsOf w 5 1 * 2 ^ 5 + b2n kw * 2 ^ 4 + b2n wait * 2 ^ 3 +
    b2n (!(b.dev.pg.faults.get [] q).isEmpty) * 2 ^ 2 + b2n (b.dev.pg.moves.any (·.q == q)) * 2 + b2n busy

/-- PG_FAULT of context q (R303): the oldest unresolved record. -/
def faultWord (b : Body) (q : Nat) : Nat :=
  match b.dev.pg.faults.get [] q with
  | [] => 0
  | r :: _ => 2 ^ 63 + r.reason % 16 * 2 ^ 56 + r.va % 2 ^ 48

/-- PG_PROT_STAT (R302). -/
def protStat (b : Body) : Nat :=
  b.dev.pg.staged.length + b2n b.dev.pg.bumping * 2 ^ 16 + b2n (oldInflight b) * 2 ^ 17 + b2n (b.flag oPgStat 18) * 2 ^ 18

/-- Does the next slot of the admission ring hold something (R395)? -/
def mbSlotFull (b : Body) (i : Nat) : Bool :=
  match xlate b (trSquad b) (mbSlotVa b i) false with
  | .phys pa => b.mem.num pa 16 != 0
  | _ => true

/-- TR_MB_STAT (R412). -/
def mbStat (b : Body) : Nat :=
  let w := bitsOf (b.csr oMbStat) 0 49
  let i := bitsOf w 0 13
  let act := bitOf w 48 && decide (i < b.field oMbCfg 0 13)
  w + b2n (act && decide (bitsOf w 32 16 < b.field oMbCfg 16 16)) * 2 ^ 49 + b2n (act && mbSlotFull b i) * 2 ^ 50

-- All registers.

/-- A mapped register's 64-bit value but for actions under way; fields that are WO read zero (R13). -/
def csrView (e : Env) (o : Nat) (b : Body) : Nat × Body :=
  if 0x4000000 ≤ o && o < 0x5980000 then siteRead e ((o - 0x4000000) / 0x10000) (o % 0x10000) b
  else if 0x100000 ≤ o && o < 0x200000 then (tbRead e.time b o, b)
  else if o = oBenchFree then (foldN 24 (fun i w => w + b2n (b.benchFree (384 + i)) * 2 ^ i) 0, b)
  else if o = oPgStat then (protStat b, b)
  else if 0x401000 ≤ o && o < 0x401800 then
    let q := (o - 0x401000) / 0x100
    if o % 0x100 = 0x10 then (residentPages b q, b)
    else if o % 0x100 = 0x28 then (ctxStat e b q, b)
    else if o % 0x100 = 0x30 then (faultWord b q, b)
    else (b.csr o, b)
  else if o = oMbStat then (mbStat b, b)
  else if o = oDg 0x10 then (putBits (b.csr o) 0 1 (b2n (digFull b)), b)
  else
    let wo := match regSpec o with | some r => r.wo | none => 0
    (b.csr o &&& (2 ^ 64 - 1 - wo), b)

/-- A mapped register's 64-bit value (R13, R15). -/
def csrWord (e : Env) (o : Nat) (b : Body) : Nat × Body :=
  let (v, b') := csrView e o b
  (v ||| w1sBusy b o, b')

/-- The environment of a time base and fuses. -/
def envOf (f : Fuses) (t : TimeBase) : Env := { time := t, fuse := f }

/-- Is the DEV block all that the host reaches, because boot stopped (R498)? -/
def bootFailed (b : Body) : Bool := b.field oDevStat 0 3 == 5

/-- The CSR offset that an agent's address names: a VF's through its page (R487), another host access through BAR0, which
serves only the DEV block where boot has failed (R38, R485, R498). -/
inductive CsrPlace where
  | reg (o : Nat)
  | zero
  | absent
  deriving DecidableEq, Repr

/-- Where an access lands. -/
def csrPlace (b : Body) (ag : Agent) (a : Nat) : CsrPlace :=
  match ag with
  | .host p f =>
    if bootFailed b && (f != 0 || 0x100000 ≤ a) then .absent
    else if f = 0 then (if (regSpec (a / 8 * 8)).isSome then .reg (a / 8 * 8) else .absent)
    else match vfMap b p f (a / 8 * 8) with
      | some o => if (regSpec o).isSome then .reg o else .absent
      | none => if 0x8000 ≤ a && a < 0x8080 then .zero else .absent
  | _ => if (regSpec (a / 8 * 8)).isSome then .reg (a / 8 * 8) else .absent

/-- Is an access one that R10 supports? -/
def csrSized (a size : Nat) : Bool := (size == 4 || size == 8) && a % size == 0

/-- A CSR read of an agent (R10, R38, R319): its bytes. The low half of TB_TIME latches the high half for the agent, and the
agent's next read of that half returns it. -/
def csrLoad (ag : Agent) (a size : Nat) (f : Fuses) (t : TimeBase) (b : Body) : List Byte × TimeBase × Body :=
  let e := envOf f t
  if !csrSized a size then (ones size, t, csrError e ag a b)
  else match csrPlace b ag a with
    | .absent => (ones size, t, addrError e (agentReq ag) a b)
    | .zero => (leBytes 0 size, t, b)
    | .reg o =>
      let k := agentReq ag
      if o = oTbTime && size = 4 then
        if a % 8 = 0 then
          (leBytes t.time.toNat 4, { t with latches := t.latches.set k (BitVec.ofNat 32 (t.time.toNat / 2 ^ 32)) }, b)
        else match t.latches.find? fun x => x.1 == k with
          | some x => (leBytes x.2.toNat 4, { t with latches := t.latches.drop k 1 }, b)
          | none => (leBytes (t.time.toNat / 2 ^ 32) 4, t, b)
      else
        let (v, b) := csrWord e o b
        (leBytes (v >>> (8 * (a % 8))) size, t, b)

end Sys2Proof.Machine
end

