-- ==== Sys2Proof/Machine/HostCmd.lean ====
section
/-! DEFINITION. The rows of the host queues (R489 to R491), BAR2 (R486), the PCIe links (R38, R482, R493), and the resets and
updates of the MP (R464, R465). -/
namespace Sys2Proof.Machine

/-- QUEUE_DOORBELL. -/
def execQueueDoorbell (p f k : Nat) (tail : Bool) (v : BitVec 16) (s : State) : Host.Outcome State Fault Refusal :=
  bodyStep (fun _ b => doorbell p f k tail v.toNat b) s

/-- A command that never goes on after it is taken. -/
def noPoll (_ : Env) (_ : HiCmd) (_ : Body) : Option (Nat × Nat) := none

/-- NOP; a reserved OPC is answered here too (R491). -/
def cmdNop (_ : Env) (c : CmdCtx) (b : Body) : Option (Nat × Nat) × Body :=
  if bitsOf c.entry 0 8 != 0 then (some (1, 0), b)
  else if bitsOf c.entry 64 192 != 0 then (some (3, 0), b)
  else (some (0, 0), b)

/-- CMD_NOP. -/
def execCmdNop (p f k : Nat) (s : State) : Host.Outcome State Fault Refusal :=
  bodyStep (cmdRow (fun o => o == 0 || 7 ≤ o) cmdNop noPoll p f k) s

/-- TILE_LOAD (R491): RESTORE from an image in host memory, TL_CORE_PC, and START last. -/
def cmdTileLoad (e : Env) (c : CmdCtx) (b : Body) : Option (Nat × Nat) × Body :=
  let n := bitsOf (c.arg 1) 0 9
  let a := c.arg 0
  let mask := bitsOf (c.arg 2) 0 32
  let pc := bitsOf (c.arg 2) 32 21
  let s := b.siteOf n
  let size := 256 + 0x10000 * ((List.range 32).countP (bitOf mask))
  if bitsOf (c.arg 1) 9 55 != 0 || bitsOf (c.arg 2) 53 11 != 0 || 384 ≤ n || a % 4096 != 0 || 2 ^ 45 < a + size || pc % 4 != 0 then
    (some (3, 0), b)
  else if !cmdTileOk b c n then (some (2, 0), b)
  else if !(b.site s).core.stopped || b.dev.mp.substs.any (·.1 == n) then (some (4, 0), b)
  else
    let l := b.mem.bytes (windowBase c.port + a) size
    (some (0, s), restoreCore s pc (restoreImage e s mask (l.take 256) (l.drop 256) b))

/-- TILE_LOAD. -/
def execTileLoad (p f k : Nat) (s : State) : Host.Outcome State Fault Refusal :=
  bodyStep (cmdRow (· == 1) cmdTileLoad noPoll p f k) s

/-- SUBST (R441, R491): completes when the substitution is done. -/
def cmdSubst (e : Env) (c : CmdCtx) (b : Body) : Option (Nat × Nat) × Body :=
  let n := bitsOf (c.arg 1) 0 9
  if c.arg 0 != 0 || bitsOf (c.arg 1) 9 55 != 0 || c.arg 2 != 0 || 384 ≤ n then (some (3, 0), b)
  else if !cmdTileOk b c n then (some (2, 0), b)
  else if b.dev.mp.substs.any (·.1 == n) then (some (4, 0), b)
  else (none, substBegin e n .hostCommand b)

/-- Has the substitution of the command's tile ended? -/
def pollSubst (_ : Env) (c : HiCmd) (b : Body) : Option (Nat × Nat) :=
  if b.dev.mp.substs.any (·.1 == c.tile) then none else some (0, b.siteOf c.tile)

/-- CMD_SUBST. -/
def execCmdSubst (p f k : Nat) (s : State) : Host.Outcome State Fault Refusal :=
  bodyStep (cmdRow (· == 2) cmdSubst pollSubst p f k) s

/-- WHISTLE (R450, R491): the host command, at the acting referee. -/
def cmdWhistle (spare : BitVec 16) (e : Env) (c : CmdCtx) (b : Body) : Option (Nat × Nat) × Body :=
  let x := bitsOf (c.arg 1) 0 16
  if c.fn != 0 then (some (2, 0), b)
  else if c.arg 0 != 0 || bitsOf (c.arg 1) 16 48 != 0 || c.arg 2 != 0 then (some (3, 0), b)
  else if !isActing b then (some (5, 0), b)
  else
    let w := lastWseq b + 1
    let (v, b) := serialOf b x
    (some (0, w), issueWhistle e x v (membersWithout b x spare) 3 b)

/-- CMD_WHISTLE. -/
def execCmdWhistle (p f k : Nat) (s : State) (spare : BitVec 16 := 0) : Host.Outcome State Fault Refusal :=
  linkStep (cmdRow (· == 3) (cmdWhistle spare) noPoll p f k) s

/-- DG_INFO.RREV (R430). -/
def rrev (b : Body) : Nat := b.field (oDg 0) 0 32

/-- INFO (R491). -/
def cmdInfo (_ : Env) (c : CmdCtx) (b : Body) : Option (Nat × Nat) × Body :=
  if bitsOf c.entry 64 192 != 0 then (some (3, 0), b)
  else (some (0, rrev b + b.field oMpFw 0 32 * 2 ^ 32), b)

/-- CMD_INFO. -/
def execCmdInfo (p f k : Nat) (s : State) : Host.Outcome State Fault Refusal :=
  bodyStep (cmdRow (· == 4) cmdInfo noPoll p f k) s

/-- What DIGEST answers once CFG_DIRTY reads 0 (R491). -/
def digestNow (b : Body) : Option (Nat × Nat) := if b.flag oMpStat 9 then none else some (0, b.csr (oMpDigest 0))

/-- DIGEST (R491). -/
def cmdDigest (_ : Env) (c : CmdCtx) (b : Body) : Option (Nat × Nat) × Body :=
  if c.fn != 0 then (some (2, 0), b)
  else if bitsOf c.entry 64 192 != 0 then (some (3, 0), b)
  else (digestNow b, b)

/-- CMD_DIGEST. -/
def execCmdDigest (p f k : Nat) (s : State) : Host.Outcome State Fault Refusal :=
  bodyStep (cmdRow (· == 5) cmdDigest (fun _ _ b => digestNow b) p f k) s

/-- FLASH (R491, R496): the slot that is not preferred is written, verified and then preferred. -/
def cmdFlash (e : Env) (c : CmdCtx) (b : Body) : Option (Nat × Nat) × Body :=
  let n := bitsOf (c.arg 1) 0 32
  let a := c.arg 0
  if c.fn != 0 then (some (2, 0), b)
  else if bitsOf (c.arg 1) 32 32 != 0 || c.arg 2 != 0 || n = 0 || 0x100_0000 < n || 2 ^ 45 < a + n then (some (3, 0), b)
  else
    let l := b.mem.bytes (windowBase c.port + a) n
    if !acceptImage e.fuse l then (some (7, 0), b)
    else
      let slot := 1 - preferredSlot b
      (some (0, slot), writeSlot slot l b)

/-- CMD_FLASH. -/
def execCmdFlash (p f k : Nat) (s : State) : Host.Outcome State Fault Refusal :=
  bodyStep (cmdRow (· == 6) cmdFlash noPoll p f k) s

/-- HI_BAR2_WRITE (R486, R493). -/
def bar2Write (ag : Agent) (p v : Nat) (e : Env) (b : Body) : Body :=
  if 2 ≤ p then b else plainStore e ag (oHiBar2 p) v b

/-- HI_BAR2_WRITE. -/
def execHiBar2Write (ag : Agent) (p : Nat) (v : Word64) (s : State) : Host.Outcome State Fault Refusal :=
  bodyStep (bar2Write ag p v.toNat) s

/-- PCIE_LINK_UP (R482, R493): a width and rate that the port trains to; RRS until boot is done (R498). -/
def linkUp (p width speed : Nat) (b : Body) : Body :=
  if 2 ≤ p || !(width == 16 || width == 8 || width == 4) || !(5 ≤ speed && speed ≤ 7) then b
  else
    let boot := b.field oDevStat 0 3
    b.setCsr (oHiPort p) ((if boot = 4 || boot = 5 then 2 else 3) + speed * 2 ^ 4 + width * 2 ^ 8)

/-- PCIE_LINK_UP. -/
def execPcieLinkUp (p width speed : Nat) (s : State) : Host.Outcome State Fault Refusal :=
  bodyStep (fun _ b => linkUp p width speed b) s

/-- PCIE_LINK_DOWN (R38, R493): accesses to the port's window fail from here. -/
def pcieDown (p : Nat) (b : Body) : Body := if 2 ≤ p then b else b.setCsr (oHiPort p) 0

/-- PCIE_LINK_DOWN. -/
def execPcieLinkDown (p : Nat) (s : State) : Host.Outcome State Fault Refusal := bodyStep (fun _ b => pcieDown p b) s

-- The MP.

/-- LOAD_WINDOW (R463): the windows above HI or below LO are counted; the third sheds a tier, the tenth restores one. -/
def loadWindow (c0 c1 c2 c3 : BitVec 8) (e : Env) (b : Body) : Body :=
  let b := mpMemCheck e 4 b
  let avg := (c1.toNat + c2.toNat + c3.toNat) / 3
  let b := b.setCsr oMpLoad (avg * 2 ^ 32 + c3.toNat * 2 ^ 24 + c2.toNat * 2 ^ 16 + c1.toNat * 2 ^ 8 + c0.toNat)
  let hi := if b.field oMpShed 8 8 < avg then b.dev.mp.hiRun + 1 else 0
  let lo := if avg < b.field oMpShed 0 8 then b.dev.mp.loRun + 1 else 0
  let b := { b with dev.mp.hiRun := hi % 3, dev.mp.loRun := lo % 10 }
  if hi = 3 then
    match [6, 5, 4, 3].find? (!shed b ·) with | some t => setShed t true b | none => b
  else if lo = 10 then
    match [3, 4, 5, 6].find? (shed b) with | some t => mpCatchUp e (setShed t false b) | none => b
  else b

/-- LOAD_WINDOW. -/
def execLoadWindow (c0 c1 c2 c3 : BitVec 8) (s : State) : Host.Outcome State Fault Refusal :=
  bodyStep (loadWindow c0 c1 c2 c3) s

/-- WATCHDOG_EXPIRY (R464): a core that has not kicked in its period. -/
def watchdogExpiry (core : Nat) (e : Env) (b : Body) : Body :=
  if 4 ≤ core then b
  else
    let (inj, b) := check (detOf 13 0) core b
    if bitOf b.dev.mp.kicks.toNat core && inj.isNone then
      { b with dev.mp.kicks := b.dev.mp.kicks &&& BitVec.ofNat 4 (15 - 2 ^ core) }
    else
      let b := recordErr e { kind := 0x0C, sev := 1, inj := inj.isSome, det := detOf 13 0, unit := core } b
      mpCatchUp e (mpOnlyReset (b.setField oMpWdt 8 1 1))

/-- WATCHDOG_EXPIRY. -/
def execWatchdogExpiry (core : Nat) (s : State) : Host.Outcome State Fault Refusal := bodyStep (watchdogExpiry core) s

/-- MP_RESET (R464). -/
def execMpReset (ag : Agent) (s : State) : Host.Outcome State Fault Refusal :=
  bodyStep (fun e b => guarded e ag oMpCtl b (mpCatchUp e (mpOnlyReset b))) s

/-- MP_UPDATE (R465), at T3 (R462). -/
def mpUpdate (ag : Agent) (e : Env) (b : Body) : Body :=
  guarded e ag oMpCtl b (mpCatchUp e { b with dev.mp.updAsked := true })

/-- MP_UPDATE. -/
def execMpUpdate (ag : Agent) (s : State) : Host.Outcome State Fault Refusal := bodyStep (mpUpdate ag) s

end Sys2Proof.Machine
end

