-- ==== Sys2Proof/Machine/Csr.lean ====
section
/-! DEFINITION. Writes to CSRs (R3, R10, R12 to R15), and access to CSR space over the mesh and by the TAP (R32,
R504). -/
namespace Sys2Proof.Machine

-- Actions of a written word.

/-- An action that a written bit asks for; the actions of one write happen from the lowest bit up (log entry 50). -/
def whenBit (v k : Nat) (f : Body → Body) (b : Body) : Body := if bitOf v k then f b else b

/-- The bits of a word that a mask picks. -/
def keepBits (v m : Nat) : Nat := v &&& m

/-- The RW and W1C part of a write, then its actions; a reserved encoding refuses all of it (R3). -/
def storeThen (e : Env) (ag : Agent) (o v : Nat) (acts : Body → Body) (b : Body) : Body :=
  match regSpec o with
  | none => b
  | some r =>
    if !mayWrite ag o || !unfrozen b o v || !encodingOk o (r.apply (b.csr o) v &&& (2 ^ 64 - 1 - r.w1s)) then csrError e ag o b
    else acts (plainWrite e ag o (v &&& (2 ^ 64 - 1 - r.w1s)) b)

-- Tile sites.

/-- Bits of an error register cleared by writing 1 to VALID (R13). -/
def clearValid (x : Word64) (v : Nat) : Word64 := if bitOf v 63 then x &&& BitVec.ofNat 64 (2 ^ 63 - 1) else x

/-- Flags cleared by writing 1 (R13, R55). -/
def clearFlags (x : BitVec 8) (v : Nat) : BitVec 8 := x &&& ~~~ (BitVec.ofNat 8 (v % 64))

/-- An engine's flags and error record after a write. -/
def Eng.clear (x : Eng) (flags err : Bool) (v : Nat) : Eng :=
  { x with flags := if flags then clearFlags x.flags v else x.flags, err := if err then clearValid x.err v else x.err }

/-- The W1C registers of a site (R112, R113, R162, R163, R209, R233, R266 to R269, R383). -/
def Site.w1c (t : Site) (r v : Nat) : Site :=
  match r with
  | 0x108 => { t with core := { t.core with late := t.core.late && !bitOf v 9 } }
  | 0x238 => { t with ecc := { t.ecc with uev := t.ecc.uev && !bitOf v 63 } }
  | 0x1020 => { t with mx := { t.mx with eng := t.mx.eng.clear true false v } }
  | 0x1028 => { t with mx := { t.mx with eng := t.mx.eng.clear false true v } }
  | 0x2010 => { t with vx := { t.vx with eng := t.vx.eng.clear true false v } }
  | 0x2018 => { t with vx := { t.vx with eng := t.vx.eng.clear false true v } }
  | 0x3008 => { t with sv := { t.sv with nonfinite := t.sv.nonfinite && !bitOf v 11, late := t.sv.late && !bitOf v 12 } }
  | 0x3010 => { t with sv := { t.sv with flags := clearFlags t.sv.flags v } }
  | 0x3018 => { t with sv := { t.sv with err := clearValid t.sv.err v } }
  | 0x3020 => { t with sv := { t.sv with nfinfo := clearValid t.sv.nfinfo v } }
  | 0x4008 => { t with cp := { t.cp with late := t.cp.late && !bitOf v 17 } }
  | 0x4010 => { t with cp := { t.cp with eng := t.cp.eng.clear true false v } }
  | 0x4018 => { t with cp := { t.cp with eng := t.cp.eng.clear false true v } }
  | _ => t

/-- RESUME of an engine of a site (R109, R160, R265, R383). -/
def Site.resume (t : Site) (r : Nat) : Site :=
  match r with
  | 0x1008 => { t with mx := { t.mx with eng := { t.mx.eng with halted := false } } }
  | 0x2000 => { t with vx := { t.vx with eng := { t.vx.eng with halted := false } } }
  | 0x3000 => { t with sv := { t.sv with halted := false } }
  | 0x4000 => { t with cp := { t.cp with eng := { t.cp.eng with halted := false } } }
  | _ => t

/-- FLUSH of an engine of a site. -/
def siteFlush (e : Env) (s r : Nat) (b : Body) : Body :=
  match r with
  | 0x1008 => mxFlush s e b
  | 0x2000 => vxFlush s e b
  | 0x3000 => svFlush s e b
  | 0x4000 => cpFlush s e b
  | _ => b

/-- A write to TL_CORE_CTL (R208). -/
def coreCtl (e : Env) (ag : Agent) (s v : Nat) (b : Body) : Body :=
  let b := whenBit v 0 (coreStart s) b
  let b := whenBit v 1 (fun b => b.modSite s fun t => { t with core := t.core.stop }) b
  let b := whenBit v 2 (fun b => b.setIpend s 0) b
  whenBit v 3 (fun b => if ag = .mp then b.setIpend s 2 else csrError e ag (oTl s 0x100) b) b

/-- A write to a register of a site's TL window. At a site that no entry names, and that therefore stays in tile reset, a write
of TL_CORE_PC, MX_CFG or TL_CORE_CTL takes effect as anywhere: only bank writes are refused there (R29, R221, R226; log entry 68). -/
def siteStore (e : Env) (ag : Agent) (s r v : Nat) (b : Body) : Body :=
  if r = 0x110 then corePcWrite ag s (BitVec.ofNat 64 v) e b
  else if r = 0x200 then bankOwnWrite ag s v e b
  else if r = 0x228 then bankPwrWrite ag s v e b
  else if r = 0x1000 then mxCfgWrite ag s v e b
  else if !mayWrite ag (oTl s r) then csrError e ag (oTl s r) b
  else if r = 0x100 then coreCtl e ag s v b
  else if r = 0x1008 || r = 0x2000 || r = 0x3000 || r = 0x4000 then
    whenBit v 1 (siteFlush e s r) (whenBit v 0 (fun b => b.modSite s fun t => t.resume r) b)
  else b.modSite s fun t => t.w1c r v

-- Units outside the sites.

/-- A write to the MP block (R466, R467). -/
def mpStore (e : Env) (ag : Agent) (o v : Nat) (b : Body) : Body :=
  if o = oMpCtl then
    storeThen e ag o v (fun b => whenBit v 1 (mpUpdate ag e) (whenBit v 0 mpOnlyReset b)) b
  else if o = oMpWdt then
    storeThen e ag o v (fun b =>
      if bitsOf v 9 4 = 0 then b
      else if ag = .mp then foldN 4 (fun k => whenBit v (9 + k) (watchdogKick k e)) b
      else csrError e ag o b) b
  else if oMpWkey 0 ≤ o && o < oMpWkey 4 then
    if mayWrite ag o then b.setCsr o v else csrError e ag o b
  else if o = oMpAgree then
    if bitOf v 2 then agreeWrite ag e b else plainStore e ag o v b
  else plainStore e ag o v b

/-- A write to a register of a host queue pair (R489, R490); `lo` and `hi` say which halves are written. -/
def queueStore (e : Env) (ag : Agent) (o v : Nat) (lo hi : Bool) (b : Body) : Body :=
  let g := (o - 0x310000) / 0x8000
  let k := ((o - 0x310000) % 0x8000 - 0x100) / 0x20
  let p := g / 9
  let f := g % 9
  if !mayWrite ag o then csrError e ag o b
  else if o % 0x20 = 0x10 then
    let b := if hi then doorbell p f k false (bitsOf v 32 16) b else b
    if lo then doorbell p f k true (bitsOf v 0 16) b else b
  else
    let was := b.flag (oHiQ p f k 0) 0
    let b := plainStore e ag o v b
    if !was && b.flag (oHiQ p f k 0) 0 then b.setField (oHiQ p f k 3) 17 1 0 else b

/-- A write to the PG block (R301 to R303). -/
def pgStore (e : Env) (ag : Agent) (o v : Nat) (b : Body) : Body :=
  let q := (o - 0x401000) / 0x100
  if o = oPgCtl then
    if mayWrite ag o then
      whenBit v 1 (fun b => (dropStage b).setField oPgStat 18 1 0) (whenBit v 0 (bump e ag) b)
    else csrError e ag o b
  else if o = oPgStageData then stageAppend e ag v b
  else if o = oPgPoolBase 0 || o = oPgPoolBase 1 then hpoolWrite e ag ((o - oPgPoolBase 0) / 16) false v b
  else if o = oPgPoolSize 0 || o = oPgPoolSize 1 then hpoolWrite e ag ((o - oPgPoolSize 0) / 16) true v b
  else if isProtection o then protRegWrite e ag o v b
  else if o < 0x401000 then plainStore e ag o v b
  else if o % 0x100 = 0x20 then
    if mayWrite ag o then whenBit v 0 (dirLook e q) b else csrError e ag o b
  else if o % 0x100 = 0x38 then
    if !mayWrite ag o then csrError e ag o b
    else if bitsOf v 0 2 = 1 then faultRetry e q b
    else if bitsOf v 0 2 = 2 then faultFail e q b
    else csrError e ag o b
  else plainStore e ag o v b

/-- A write to an HBM stack's registers (R299, R300); a spare that comes into use is no longer free. -/
def hmStore (e : Env) (ag : Agent) (o v : Nat) (b : Body) : Body :=
  let r := o % 0x100000
  if 0x40 ≤ r && r < 0x80 then
    if b.flag o 63 then csrError e ag o b
    else
      let b := plainStore e ag o v b
      if b.flag o 63 then b.setField (o / 0x100000 * 0x100000) 12 4 (b.field (o / 0x100000 * 0x100000) 12 4 - 1) else b
  else plainStore e ag o v b

/-- A write to a port's registers (R352, R353). -/
def fbStore (e : Env) (ag : Agent) (o v : Nat) (b : Body) : Body :=
  let p := (o - 0x2000000) / 0x100000
  let r := o % 0x100000
  if r = 0 then
    let keep := v - bitsOf v 0 1 + b.field o 0 1
    storeThen e ag o keep (portEnable ag p (bitOf v 0) e) b
  else if r = 8 then
    if mayWrite ag o then whenBit v 1 (portWidth ag p e) (whenBit v 0 (portRetrain ag p e) b) else csrError e ag o b
  else if isProtection o then protRegWrite e ag o v b
  else plainStore e ag o v b

/-- A write to the router's registers (R354, R355). -/
def rtrStore (e : Env) (ag : Agent) (o v : Nat) (b : Body) : Body :=
  let r := o - 0x2A00000
  let c := BitVec.ofNat 16 v
  if r = 0 || r = 8 || r = 0x20 then routerId ag r (BitVec.ofNat 64 v) e b
  else if r = 0x38 then guarded e ag o b (flowResetAll e c.toNat b)
  else if r = 0x40 then guarded e ag o b (addDead c b)
  else if r = 0x48 then guarded e ag o b (dropDead c b)
  else if isProtection o then protRegWrite e ag o v b
  else plainStore e ag o v b

/-- A write to the SQ block (R480, R481). -/
def sqStore (e : Env) (ag : Agent) (o v : Nat) (b : Body) : Body :=
  let q := (o - 0x9000000) / 0x40
  if isProtection o then protRegWrite e ag o v b
  else if 0x9000200 ≤ o then plainStore e ag o v b
  else match o % 0x40 with
    | 0x00 => sqCfgWrite e ag q v b
    | 0x18 => storeThen e ag o v (fun b => b.modSq fun x => { x with rxNext := x.rxNext.drop q 1 }) b
    | 0x30 =>
      if mayWrite ag o then whenBit v 1 (callReturn ag q e) (whenBit v 0 (callup ag q e) b) else csrError e ag o b
    | _ => plainStore e ag o v b

/-- A write to the DG block (R429, R430). -/
def dgStore (e : Env) (ag : Agent) (o v : Nat) (b : Body) : Body :=
  if o = oDg 8 then storeThen e ag o v (fun b => whenBit v 0 (digestFlush e ag) b) b
  else if digAffected o != [] then dgSelectWrite e ag o v b
  else plainStore e ag o v b

/-- Do the micro-batch registers accept a write (R411)? -/
def mbFree (b : Body) : Bool := !b.flag oMbStat 48 && b.field oMbStat 16 7 == 0

/-- A write to the TR block (R410 to R412). -/
def trStore (e : Env) (ag : Agent) (o v : Nat) (b : Body) : Body :=
  match o - 0xB000000 with
  | 0x08 => trGenWrite e ag v b
  | 0x10 => trHomeWrite e ag v b
  | 0x38 => storeThen e ag o v (fun b => whenBit v 1 replayRelease (whenBit v 0 clearCarry b)) b
  | 0x50 => if b.dev.tr.lineups.isEmpty then plainStore e ag o v b else csrError e ag o b
  | 0x80 =>
    if mbFree b then storeThen e ag o v (fun b => b.setField oMbStat 32 16 (b.field oMbCfg 32 16)) b else csrError e ag o b
  | 0x88 => if mbFree b then plainStore e ag o v b else csrError e ag o b
  | 0x98 =>
    if mayWrite ag o then whenBit v 1 (mbScan e) (whenBit v 0 (mbStart e ag) b) else csrError e ag o b
  | 0xC0 => if updIdle b then plainStore e ag o v b else csrError e ag o b
  | 0xC8 =>
    if mayWrite ag o then whenBit v 1 (updResume e) (whenBit v 0 (updLook e) b) else csrError e ag o b
  | _ => plainStore e ag o v b

/-- A write to a register of the device outside DEV_RST_CTL and the time base. -/
def bodyStore (e : Env) (ag : Agent) (o v : Nat) (lo hi : Bool) (b : Body) : Body :=
  if o < 0x100000 then
    if 0x1000 ≤ o then substMapWrite ag ((o - 0x1000) / 8) v e b else plainStore e ag o v b
  else if o < 0x300000 then mpStore e ag o v b
  else if o < 0x310000 then plainStore e ag o v b
  else if o < 0x400000 then queueStore e ag o v lo hi b
  else if o < 0x500000 then pgStore e ag o v b
  else if o < 0x2000000 then hmStore e ag o v b
  else if o < 0x2A00000 then fbStore e ag o v b
  else if o < 0x4000000 then rtrStore e ag o v b
  else if o < 0x8000000 then siteStore e ag ((o - 0x4000000) / 0x10000) (o % 0x10000) v b
  else if o < 0x9000000 then
    if o = oErr 0x08 then errTail ag v e b else if o = oErr 0x18 then errInj ag v e b else plainStore e ag o v b
  else if o < 0xA000000 then sqStore e ag o v b
  else if o < 0xB000000 then dgStore e ag o v b
  else trStore e ag o v b

/-- A write to a register of the time base (R318, R319). -/
def tbStore (ag : Agent) (o v : Nat) (f : Fuses) (t : TimeBase) (b : Body) : TimeBase × Body :=
  if o = oTbSet then tbSet ag (BitVec.ofNat 64 v) f t b
  else if o = oTbCfg then tbCfg ag (BitVec.ofNat 64 v) f t b
  else if !mayWrite ag o then (t, csrError (envOf f t) ag o b)
  else if o = oTbStat then
    ({ t with rootConflict := t.rootConflict && !bitOf v 7, stateEvt := t.stateEvt && !bitOf v 6,
              offsetAlarm := t.offsetAlarm && !bitOf v 5 }, b)
  else (t, b)

/-- A 64-bit write to a mapped register, with the halves that were written; an action under way is asked for no second time
(R15). A device reset by this row meets no failing
boot (DEVICE_RESET has that as its operand). -/
def csrStore (ag : Agent) (o v : Nat) (lo hi : Bool) (f : Fuses) (t : TimeBase) (b : Body) : TimeBase × Body :=
  let v := v &&& (2 ^ 64 - 1 - w1sBusy b o)
  if o = oDevRst then
    rstCtl ag (BitVec.ofNat 64 v).toNat noBoot (if bitOf v 31 then 31 else if bitOf v 30 then 30 else 29) f t b
  else if 0x100000 ≤ o && o < 0x200000 then tbStore ag o v f t b
  else
    let b := bodyStore (envOf f t) ag o v lo hi b
    if 0x2000000 ≤ o && o < 0x2B00000 then t.withLinks b else (t, b)

/-- The word that a 32-bit write makes: the other half keeps its RW fields and asks nothing (R10). -/
def mergeHalf (rw cur v sh : Nat) : Nat := (cur &&& rw) - bitsOf (cur &&& rw) sh 32 * 2 ^ sh + bitsOf v 0 32 * 2 ^ sh

/-- Bits that a VF's write asks of a register beyond what R487 lets it write. -/
def vfExtra (o v : Nat) : Bool :=
  match regSpec o with
  | none => true
  | some r => vfMask o == 0 || (v &&& (r.rw ||| r.w1c ||| r.w1s ||| r.wo)) &&& (2 ^ 64 - 1 - vfMask o) != 0

/-- Has the half of a register from bit `sh` on any field that a write can reach (R10, R13)? -/
def halfWrites (r : RegSpec) (sh : Nat) : Bool := bitsOf (r.rw ||| r.w1c ||| r.w1s ||| r.wo) sh 32 != 0

/-- May the agent make a plain write of the register at all? -/
def mayTouch (ag : Agent) (o : Nat) : Bool :=
  match ag with | .host _ (_ + 1) => vfMask o != 0 | _ => mayWrite ag o

/-- A CSR write of an agent (R3, R10, R38, R487): at offset `a`, of `size` bytes. A 32-bit write of a half without fields
changes nothing. -/
def csrAccess (ag : Agent) (a size v : Nat) (f : Fuses) (t : TimeBase) (b : Body) : TimeBase × Body :=
  let e := envOf f t
  if !csrSized a size then (t, csrError e ag a b)
  else match csrPlace b ag a with
    | .absent =>
      match ag with
      | .host _ (_ + 1) => (t, csrError e ag a b)
      | _ => (t, addrError e (agentReq ag) a b)
    | .zero => (t, csrError e ag a b)
    | .reg o =>
      let r := (regSpec o).getD {}
      if size = 4 && r.wo != 0 then (t, csrError e ag o b)
      else if size = 4 && !halfWrites r (8 * (a % 8)) then (t, if mayTouch ag o then b else csrError e ag o b)
      else
        let (cur, b) := if size = 4 then csrWord e o b else (0, b)
        let sh := 8 * (a % 8)
        let v := if size = 4 then mergeHalf r.rw cur v sh else v
        let lo := size = 8 || sh = 0
        let hi := size = 8 || sh != 0
        match ag with
        | .host p (_ + 1) =>
          let (t, b) := if vfExtra o v then (t, csrError e ag o b) else (t, b)
          if vfMask o = 0 then (t, b) else csrStore (.host p 0) o (v &&& vfMask o) lo hi f t b
        | _ => csrStore ag o v lo hi f t b

/-- CSR_WRITE: a host access crosses its PCIe port first (R434). -/
def csrWriteRow (ag : Agent) (a size v : Nat) (f : Fuses) (t : TimeBase) (b : Body) : TimeBase × Body :=
  csrAccess ag a size v f t (pcieCheck (envOf f t) ag b)

/-- CSR_WRITE. -/
def execCsrWrite (ag : Agent) (addr size : Nat) (v : Word64) (s : State) : Host.Outcome State Fault Refusal :=
  timeStep (csrWriteRow ag addr size v.toNat) s

/-- TAP_CSR (R504): a 64-bit access, where DBG_EN and TAP_EN let it act. STATUS says whether it was refused. -/
def tapCsr (dr : BitVec 128) (f : Fuses) (t : TimeBase) (b : Body) : TimeBase × Body :=
  let w := dr.toNat
  let o := bitsOf w 3 25 * 8
  let marks := fun (b : Body) => (b.csr (oErr 0), b.csr (oErr 0x100))
  let was := marks b
  let ended := fun (b : Body) (d : Nat) =>
    { b with dev.hi.tapStatus := if marks b == was then 0 else 2, dev.hi.tapData := BitVec.ofNat 64 d }
  if !(b.flag oDevDbg 0 && b.flag oDevDbg 1) then (t, b)
  else if bitOf w 2 then
    let (t, b) := csrAccess .tap o 8 (bitsOf w 64 64) f t b
    (t, ended b (bitsOf w 64 64))
  else
    let (l, t, b) := csrLoad .tap o 8 f t b
    (t, ended b (ofBytes l))

/-- TAP_CSR. -/
def execTapCsr (dr : BitVec 128) (s : State) : Host.Outcome State Fault Refusal := timeStep (tapCsr dr) s

-- Mesh requests.

/-- The agent of a mesh request: the host's function by its stop, 408 + 9 × port + function (log entry 51). -/
def agentOf (r : MeshReq) : Option Agent :=
  match r.req with
  | 9 => some (.host ((r.src - 408) / 9) ((r.src - 408) % 9))
  | 10 => some .mp
  | 11 => some .tap
  | _ => none

/-- May the requester reach memory outside CSR space: not a VF, which has only its page (R483, R485), nor the host where
boot has failed (R498)? -/
def reachesMemory (b : Body) (r : MeshReq) : Bool :=
  match agentOf r with
  | some (.host _ f) => f == 0 && !bootFailed b
  | _ => true

/-- MESH_REQUEST (R32, R37, R38). -/
def meshRequest (r : MeshReq) (f : Fuses) (t : TimeBase) (b : Body) : TimeBase × Body :=
  let e := envOf f t
  let failed := fun (a : Nat) (b : Body) =>
    let b := addrError e r.req a b
    (t, if r.write then b else b.answer r.req (ones r.len))
  match r.dst with
  | .tile n off =>
    if !reachesMemory b r then failed off b else (t, serveTile e r n off b)
  | .phys pa =>
    match regionOf pa, agentOf r with
    | .csr o, some ag =>
      if r.write then csrAccess ag o r.bytes.length (ofBytes r.bytes) f t b
      else
        let (l, t, b) := csrLoad ag o r.len f t b
        (t, b.answer r.req l)
    | .csr _, none => failed pa b
    | _, _ =>
      if !reachesMemory b r then failed pa b else (t, sendMem e r pa b)

/-- MESH_REQUEST. -/
def execMeshRequest (r : MeshReq) (s : State) : Host.Outcome State Fault Refusal := timeStep (meshRequest r) s

end Sys2Proof.Machine
end

