-- ==== Sys2Proof/Machine/LoadStore.lean ====
section
/-! DEFINITION. The loads and stores of the control core (R168, R170). -/
namespace Sys2Proof.Machine

/-- A load or store instruction. -/
def loadStore (major : Nat) (m : MemOp) (site : Nat) (e : Env) (b : Body) : Body :=
  coreGo e site (wordI major m.rd m.rs1 m.imm) {} (fun _ => none) (memOperand e site (wordI major m.rd m.rs1 m.imm) m) b

/-- L64: 64 bits (R170). -/
def execL64 (site : Nat) (rd rs1 : RegNo) (imm : BitVec 16) (s : State) : Host.Outcome State Fault Refusal :=
  bodyStep (loadStore 0x08 { store := false, size := 8, signed := false, fp := false, rd := rd, rs1 := rs1, imm := imm } site) s

/-- L32S: 32 bits sign-extended (R170). -/
def execL32s (site : Nat) (rd rs1 : RegNo) (imm : BitVec 16) (s : State) : Host.Outcome State Fault Refusal :=
  bodyStep (loadStore 0x09 { store := false, size := 4, signed := true, fp := false, rd := rd, rs1 := rs1, imm := imm } site) s

/-- L32Z: 32 bits (R170). -/
def execL32z (site : Nat) (rd rs1 : RegNo) (imm : BitVec 16) (s : State) : Host.Outcome State Fault Refusal :=
  bodyStep (loadStore 0x0A { store := false, size := 4, signed := false, fp := false, rd := rd, rs1 := rs1, imm := imm } site) s

/-- L8Z: 8 bits (R170). -/
def execL8z (site : Nat) (rd rs1 : RegNo) (imm : BitVec 16) (s : State) : Host.Outcome State Fault Refusal :=
  bodyStep (loadStore 0x0B { store := false, size := 1, signed := false, fp := false, rd := rd, rs1 := rs1, imm := imm } site) s

/-- S64: 64 bits (R170). -/
def execS64 (site : Nat) (rd rs1 : RegNo) (imm : BitVec 16) (s : State) (clash : List Nat := []) :
    Host.Outcome State Fault Refusal :=
  clashStep clash (loadStore 0x0C { store := true, size := 8, signed := false, fp := false, rd := rd, rs1 := rs1, imm := imm } site) s

/-- S32: 32 bits (R170). -/
def execS32 (site : Nat) (rd rs1 : RegNo) (imm : BitVec 16) (s : State) (clash : List Nat := []) :
    Host.Outcome State Fault Refusal :=
  clashStep clash (loadStore 0x0D { store := true, size := 4, signed := false, fp := false, rd := rd, rs1 := rs1, imm := imm } site) s

/-- S8: 8 bits (R170). -/
def execS8 (site : Nat) (rd rs1 : RegNo) (imm : BitVec 16) (s : State) (clash : List Nat := []) :
    Host.Outcome State Fault Refusal :=
  clashStep clash (loadStore 0x0E { store := true, size := 1, signed := false, fp := false, rd := rd, rs1 := rs1, imm := imm } site) s

/-- FL64: 64 bits (R170). -/
def execFl64 (site : Nat) (rd rs1 : RegNo) (imm : BitVec 16) (s : State) : Host.Outcome State Fault Refusal :=
  bodyStep (loadStore 0x0F { store := false, size := 8, signed := false, fp := true, rd := rd, rs1 := rs1, imm := imm } site) s

/-- FS64: 64 bits (R170). -/
def execFs64 (site : Nat) (rd rs1 : RegNo) (imm : BitVec 16) (s : State) (clash : List Nat := []) :
    Host.Outcome State Fault Refusal :=
  clashStep clash (loadStore 0x10 { store := true, size := 8, signed := false, fp := true, rd := rd, rs1 := rs1, imm := imm } site) s

/-- FL32: 32 bits (R170). -/
def execFl32 (site : Nat) (rd rs1 : RegNo) (imm : BitVec 16) (s : State) : Host.Outcome State Fault Refusal :=
  bodyStep (loadStore 0x11 { store := false, size := 4, signed := false, fp := true, rd := rd, rs1 := rs1, imm := imm } site) s

/-- FS32: 32 bits (R170). -/
def execFs32 (site : Nat) (rd rs1 : RegNo) (imm : BitVec 16) (s : State) (clash : List Nat := []) :
    Host.Outcome State Fault Refusal :=
  clashStep clash (loadStore 0x12 { store := true, size := 4, signed := false, fp := true, rd := rd, rs1 := rs1, imm := imm } site) s

/-- YIELD_STORE (R476, R477): the core's 64-bit store of `v` to its yield word, which stops it. Nothing happens where no
call-up counts the tile. -/
def yieldRow (site : Nat) (v : Word64) (e : Env) (b : Body) : Body :=
  match b.tileOf site with
  | none => b
  | some tile =>
    match (List.range 8).find? fun q =>
        let st := b.field (oSq q 0x28) 0 2
        let base := b.field (oSq q 8) 8 9
        (st == 1 || st == 2) && base ≤ tile && tile < base + b.field (oSq q 8) 17 7 with
    | none => b
    | some q =>
      let a := b.field (oSq q 0x10) 0 18 * 8
      coreGo e site 0 {} (fun _ => none) (fun b =>
        let k := (b.site site).bank (a / 0x10000)
        if k.owner != 1 || !k.powered then .exc 0x06 a b
        else if !k.isOn then .hold b
        else .done (yieldStore site a 8
          (unitWrite e 1 site (a, 8) (b.mem.write (siteBase site + a) (leBytes v.toNat 8)) b).2)) b

/-- YIELD_STORE. -/
def execYieldStore (site : Nat) (v : Word64) (s : State) (clash : List Nat := []) : Host.Outcome State Fault Refusal :=
  clashStep clash (yieldRow site v) s

end Sys2Proof.Machine
end

