-- ==== Sys2Proof/Machine/Dispatch.lean ====
section
/-! DEFINITION. What each command does: one arm per row of the opcode table. -/
namespace Sys2Proof.Machine

/-- The effect of a command on everything but the queue. -/
def exec (i : Instr) (s : State) : Host.Outcome State Fault Refusal :=
  match i with
  | .csrWrite ag addr size v => Sys2Proof.Machine.execCsrWrite ag addr size v s
  | .substMapWrite ag n v => Sys2Proof.Machine.execSubstMapWrite ag n v s
  | .substDrained n => Sys2Proof.Machine.execSubstDrained n s
  | .meshRequest r => Sys2Proof.Machine.execMeshRequest r s
  | .siteWindowAccess ag site off write bytes len => Sys2Proof.Machine.execSiteWindowAccess ag site off write bytes len s
  | .engineIssue site w => Sys2Proof.Machine.execEngineIssue site w s
  | .mxOpen site => Sys2Proof.Machine.execMxOpen site s
  | .mxMma site => Sys2Proof.Machine.execMxMma site s
  | .mxClose site clash => Sys2Proof.Machine.execMxClose site s clash
  | .mxFold site => Sys2Proof.Machine.execMxFold site s
  | .mxLoadacc site => Sys2Proof.Machine.execMxLoadacc site s
  | .mxDiscard site => Sys2Proof.Machine.execMxDiscard site s
  | .mxSpill site clash => Sys2Proof.Machine.execMxSpill site s clash
  | .mxFill site => Sys2Proof.Machine.execMxFill site s
  | .mxKickoffLaunch site => Sys2Proof.Machine.execMxKickoffLaunch site s
  | .mxShadowDrainEnd site g clash => Sys2Proof.Machine.execMxShadowDrainEnd site g s clash
  | .mxComplete site => Sys2Proof.Machine.execMxComplete site s
  | .mxFlush ag site clash => Sys2Proof.Machine.execMxFlush ag site s clash
  | .mxResume ag site => Sys2Proof.Machine.execMxResume ag site s
  | .mxCfgWrite ag site v => Sys2Proof.Machine.execMxCfgWrite ag site v s
  | .vxRun site clash => Sys2Proof.Machine.execVxRun site s clash
  | .vxPload site => Sys2Proof.Machine.execVxPload site s
  | .vxSpill site clash => Sys2Proof.Machine.execVxSpill site s clash
  | .vxFill site => Sys2Proof.Machine.execVxFill site s
  | .vxKickoffLaunch site => Sys2Proof.Machine.execVxKickoffLaunch site s
  | .vxComplete site => Sys2Proof.Machine.execVxComplete site s
  | .vxFlush ag site => Sys2Proof.Machine.execVxFlush ag site s
  | .vxResume ag site => Sys2Proof.Machine.execVxResume ag site s
  | .add site rd rs1 rs2 => Sys2Proof.Machine.execAdd site rd rs1 rs2 s
  | .sub site rd rs1 rs2 => Sys2Proof.Machine.execSub site rd rs1 rs2 s
  | .and site rd rs1 rs2 => Sys2Proof.Machine.execAnd site rd rs1 rs2 s
  | .or site rd rs1 rs2 => Sys2Proof.Machine.execOr site rd rs1 rs2 s
  | .xor site rd rs1 rs2 => Sys2Proof.Machine.execXor site rd rs1 rs2 s
  | .shl site rd rs1 rs2 => Sys2Proof.Machine.execShl site rd rs1 rs2 s
  | .shr site rd rs1 rs2 => Sys2Proof.Machine.execShr site rd rs1 rs2 s
  | .sar site rd rs1 rs2 => Sys2Proof.Machine.execSar site rd rs1 rs2 s
  | .lt site rd rs1 rs2 => Sys2Proof.Machine.execLt site rd rs1 rs2 s
  | .ltu site rd rs1 rs2 => Sys2Proof.Machine.execLtu site rd rs1 rs2 s
  | .mul site rd rs1 rs2 => Sys2Proof.Machine.execMul site rd rs1 rs2 s
  | .mulhs site rd rs1 rs2 => Sys2Proof.Machine.execMulhs site rd rs1 rs2 s
  | .mulhu site rd rs1 rs2 => Sys2Proof.Machine.execMulhu site rd rs1 rs2 s
  | .div site rd rs1 rs2 => Sys2Proof.Machine.execDiv site rd rs1 rs2 s
  | .divu site rd rs1 rs2 => Sys2Proof.Machine.execDivu site rd rs1 rs2 s
  | .mod site rd rs1 rs2 => Sys2Proof.Machine.execMod site rd rs1 rs2 s
  | .modu site rd rs1 rs2 => Sys2Proof.Machine.execModu site rd rs1 rs2 s
  | .addk site rd rs1 imm => Sys2Proof.Machine.execAddk site rd rs1 imm s
  | .andk site rd rs1 imm => Sys2Proof.Machine.execAndk site rd rs1 imm s
  | .ork site rd rs1 imm => Sys2Proof.Machine.execOrk site rd rs1 imm s
  | .xork site rd rs1 imm => Sys2Proof.Machine.execXork site rd rs1 imm s
  | .ltk site rd rs1 imm => Sys2Proof.Machine.execLtk site rd rs1 imm s
  | .shk site rd rs1 imm => Sys2Proof.Machine.execShk site rd rs1 imm s
  | .upk site rd rs1 imm => Sys2Proof.Machine.execUpk site rd rs1 imm s
  | .l64 site rd rs1 imm => Sys2Proof.Machine.execL64 site rd rs1 imm s
  | .l32s site rd rs1 imm => Sys2Proof.Machine.execL32s site rd rs1 imm s
  | .l32z site rd rs1 imm => Sys2Proof.Machine.execL32z site rd rs1 imm s
  | .l8z site rd rs1 imm => Sys2Proof.Machine.execL8z site rd rs1 imm s
  | .s64 site rd rs1 imm clash => Sys2Proof.Machine.execS64 site rd rs1 imm s clash
  | .s32 site rd rs1 imm clash => Sys2Proof.Machine.execS32 site rd rs1 imm s clash
  | .s8 site rd rs1 imm clash => Sys2Proof.Machine.execS8 site rd rs1 imm s clash
  | .fl64 site rd rs1 imm => Sys2Proof.Machine.execFl64 site rd rs1 imm s
  | .fl32 site rd rs1 imm => Sys2Proof.Machine.execFl32 site rd rs1 imm s
  | .fs64 site rd rs1 imm clash => Sys2Proof.Machine.execFs64 site rd rs1 imm s clash
  | .fs32 site rd rs1 imm clash => Sys2Proof.Machine.execFs32 site rd rs1 imm s clash
  | .fma site fd fs1 fs2 fs3 sg rdef rsel rsv => Sys2Proof.Machine.execFma site fd fs1 fs2 fs3 sg rdef rsel rsv s
  | .fadd site o => Sys2Proof.Machine.execFadd site o s
  | .fsub site o => Sys2Proof.Machine.execFsub site o s
  | .fmul site o => Sys2Proof.Machine.execFmul site o s
  | .fdiv site o => Sys2Proof.Machine.execFdiv site o s
  | .fsqrt site o => Sys2Proof.Machine.execFsqrt site o s
  | .fmin site o => Sys2Proof.Machine.execFmin site o s
  | .fmax site o => Sys2Proof.Machine.execFmax site o s
  | .fceq site o => Sys2Proof.Machine.execFceq site o s
  | .fclt site o => Sys2Proof.Machine.execFclt site o s
  | .fcle site o => Sys2Proof.Machine.execFcle site o s
  | .fcvW site o => Sys2Proof.Machine.execFcvW site o s
  | .fcvToi site o => Sys2Proof.Machine.execFcvToi site o s
  | .fcvFromi site o => Sys2Proof.Machine.execFcvFromi site o s
  | .fmovx site o => Sys2Proof.Machine.execFmovx site o s
  | .xmovf site o => Sys2Proof.Machine.execXmovf site o s
  | .fcvTodf site o => Sys2Proof.Machine.execFcvTodf site o s
  | .fcvFromdf site o => Sys2Proof.Machine.execFcvFromdf site o s
  | .breq site rs1 rs2 off => Sys2Proof.Machine.execBreq site rs1 rs2 off s
  | .brne site rs1 rs2 off => Sys2Proof.Machine.execBrne site rs1 rs2 off s
  | .brlt site rs1 rs2 off => Sys2Proof.Machine.execBrlt site rs1 rs2 off s
  | .brge site rs1 rs2 off => Sys2Proof.Machine.execBrge site rs1 rs2 off s
  | .brltu site rs1 rs2 off => Sys2Proof.Machine.execBrltu site rs1 rs2 off s
  | .brgeu site rs1 rs2 off => Sys2Proof.Machine.execBrgeu site rs1 rs2 off s
  | .jmp site off => Sys2Proof.Machine.execJmp site off s
  | .call site off => Sys2Proof.Machine.execCall site off s
  | .jmpr site rd rs1 rs2 func => Sys2Proof.Machine.execJmpr site rd rs1 rs2 func s
  | .loop site rs rsv lvl fin => Sys2Proof.Machine.execLoop site rs rsv lvl fin s
  | .waitc site cc rsvA rs1 rsvB => Sys2Proof.Machine.execWaitc site cc rsvA rs1 rsvB s
  | .waitcSatisfied site => Sys2Proof.Machine.execWaitcSatisfied site s
  | .waitk site rsvA rs1 rsvB => Sys2Proof.Machine.execWaitk site rsvA rs1 rsvB s
  | .waitkDue site => Sys2Proof.Machine.execWaitkDue site s
  | .fenceM site rsv => Sys2Proof.Machine.execFenceM site rsv s
  | .fenceE site rsv => Sys2Proof.Machine.execFenceE site rsv s
  | .pfence site rsv => Sys2Proof.Machine.execPfence site rsv s
  | .fenceA site rsv => Sys2Proof.Machine.execFenceA site rsv s
  | .fenceComplete site => Sys2Proof.Machine.execFenceComplete site s
  | .sprd site rd rs1 sr => Sys2Proof.Machine.execSprd site rd rs1 sr s
  | .spwr site rd rs1 sr => Sys2Proof.Machine.execSpwr site rd rs1 sr s
  | .spset site rd rs1 sr => Sys2Proof.Machine.execSpset site rd rs1 sr s
  | .spclr site rd rs1 sr => Sys2Proof.Machine.execSpclr site rd rs1 sr s
  | .vsum site rd f slot rsv => Sys2Proof.Machine.execVsum site rd f slot rsv s
  | .trap site code rsv => Sys2Proof.Machine.execTrap site code rsv s
  | .eret site rsv => Sys2Proof.Machine.execEret site rsv s
  | .interruptEntry site => Sys2Proof.Machine.execInterruptEntry site s
  | .balloc site rd rs1 rs2 => Sys2Proof.Machine.execBalloc site rd rs1 rs2 s
  | .bfree site rd rs1 rs2 => Sys2Proof.Machine.execBfree site rd rs1 rs2 s
  | .bhand site rd rs1 rs2 => Sys2Proof.Machine.execBhand site rd rs1 rs2 s
  | .bguest site rd rs1 rs2 => Sys2Proof.Machine.execBguest site rd rs1 rs2 s
  | .block site rd rs1 rs2 => Sys2Proof.Machine.execBlock site rd rs1 rs2 s
  | .bpwr site rd rs1 rs2 => Sys2Proof.Machine.execBpwr site rd rs1 rs2 s
  | .coreStart ag site => Sys2Proof.Machine.execCoreStart ag site s
  | .coreStop ag site => Sys2Proof.Machine.execCoreStop ag site s
  | .irqh ag site => Sys2Proof.Machine.execIrqh ag site s
  | .irqm ag site => Sys2Proof.Machine.execIrqm ag site s
  | .tlCorePcWrite ag site v => Sys2Proof.Machine.execTlCorePcWrite ag site v s
  | .tlBankOwnWrite ag site v => Sys2Proof.Machine.execTlBankOwnWrite ag site v s
  | .tlBankPwrWrite ag site v => Sys2Proof.Machine.execTlBankPwrWrite ag site v s
  | .bankWakeDone site bank => Sys2Proof.Machine.execBankWakeDone site bank s
  | .svLaunch site => Sys2Proof.Machine.execSvLaunch site s
  | .svLoad site => Sys2Proof.Machine.execSvLoad site s
  | .svUnload site => Sys2Proof.Machine.execSvUnload site s
  | .forwardedLaunch site => Sys2Proof.Machine.execForwardedLaunch site s
  | .svPartStart site clash => Sys2Proof.Machine.execSvPartStart site s clash
  | .svPieceArrive site => Sys2Proof.Machine.execSvPieceArrive site s
  | .svWaitSatisfied site clash => Sys2Proof.Machine.execSvWaitSatisfied site s clash
  | .svPartEnd site => Sys2Proof.Machine.execSvPartEnd site s
  | .svDonePiece site => Sys2Proof.Machine.execSvDonePiece site s
  | .svRunComplete site clash => Sys2Proof.Machine.execSvRunComplete site s clash
  | .svFailNotice site => Sys2Proof.Machine.execSvFailNotice site s
  | .svFlush ag site => Sys2Proof.Machine.execSvFlush ag site s
  | .svResume ag site => Sys2Proof.Machine.execSvResume ag site s
  | .scrubRead stack => Sys2Proof.Machine.execScrubRead stack s
  | .laneRepair stack lane => Sys2Proof.Machine.execLaneRepair stack lane s
  | .laneRepairEnd stack => Sys2Proof.Machine.execLaneRepairEnd stack s
  | .stackLost stack => Sys2Proof.Machine.execStackLost stack s
  | .faultRetry ag q => Sys2Proof.Machine.execFaultRetry ag q s
  | .faultFail ag q => Sys2Proof.Machine.execFaultFail ag q s
  | .pgDirKick ag q => Sys2Proof.Machine.execPgDirKick ag q s
  | .dirPoll q => Sys2Proof.Machine.execDirPoll q s
  | .directiveStart q => Sys2Proof.Machine.execDirectiveStart q s
  | .dirFetch q => Sys2Proof.Machine.execDirFetch q s
  | .dirOffload q => Sys2Proof.Machine.execDirOffload q s
  | .dirAlloc q => Sys2Proof.Machine.execDirAlloc q s
  | .dirFree q => Sys2Proof.Machine.execDirFree q s
  | .dirRetain q => Sys2Proof.Machine.execDirRetain q s
  | .dirRelease q => Sys2Proof.Machine.execDirRelease q s
  | .translationInvalAck q stop => Sys2Proof.Machine.execTranslationInvalAck q stop s
  | .pageMoveDone q hostOk => Sys2Proof.Machine.execPageMoveDone q hostOk s
  | .budgetWaitEnd q => Sys2Proof.Machine.execBudgetWaitEnd q s
  | .directiveComplete q => Sys2Proof.Machine.execDirectiveComplete q s
  | .stageAppend ag v => Sys2Proof.Machine.execStageAppend ag v s
  | .protRegWrite ag off v => Sys2Proof.Machine.execProtRegWrite ag off v s
  | .bump ag => Sys2Proof.Machine.execBump ag s
  | .protBumpApply => Sys2Proof.Machine.execProtBumpApply s
  | .stageClear ag => Sys2Proof.Machine.execStageClear ag s
  | .hpoolWrite ag port size v => Sys2Proof.Machine.execHpoolWrite ag port size v s
  | .tbSetWrite ag v => Sys2Proof.Machine.execTbSetWrite ag v s
  | .tbCfgWrite ag v => Sys2Proof.Machine.execTbCfgWrite ag v s
  | .ptpMessage port dom m => Sys2Proof.Machine.execPtpMessage port dom m s
  | .timeSourceLost => Sys2Proof.Machine.execTimeSourceLost s
  | .timeSend port => Sys2Proof.Machine.execTimeSend port s
  | .time port tb hops root serial => Sys2Proof.Machine.execTime port tb hops root serial s
  | .parentReselect => Sys2Proof.Machine.execParentReselect s
  | .pcsLock port => Sys2Proof.Machine.execPcsLock port s
  | .helloSend port => Sys2Proof.Machine.execHelloSend port s
  | .hello port serial coord llrEn direct typ mac => Sys2Proof.Machine.execHello port serial coord llrEn direct s typ mac
  | .helloTimeout port => Sys2Proof.Machine.execHelloTimeout port s
  | .keepaliveSend port => Sys2Proof.Machine.execKeepaliveSend port s
  | .keepalive port epoch digest => Sys2Proof.Machine.execKeepalive port epoch digest s
  | .keepaliveTimeout port => Sys2Proof.Machine.execKeepaliveTimeout port s
  | .laneBad port lane => Sys2Proof.Machine.execLaneBad port lane s
  | .widthReq port mask => Sys2Proof.Machine.execWidthReq port mask s
  | .widthAck port mask => Sys2Proof.Machine.execWidthAck port mask s
  | .widthGo port mask k => Sys2Proof.Machine.execWidthGo port mask k s
  | .widthSwitch port => Sys2Proof.Machine.execWidthSwitch port s
  | .linkRelock port => Sys2Proof.Machine.execLinkRelock port s
  | .relockTimeout port => Sys2Proof.Machine.execRelockTimeout port s
  | .retrainReq port => Sys2Proof.Machine.execRetrainReq port s
  | .portWidth ag port => Sys2Proof.Machine.execPortWidth ag port s
  | .portRetrain ag port => Sys2Proof.Machine.execPortRetrain ag port s
  | .linkTrained port lanes => Sys2Proof.Machine.execLinkTrained port lanes s
  | .linkDown port => Sys2Proof.Machine.execLinkDown port s
  | .llrAck port seq => Sys2Proof.Machine.execLlrAck port seq s
  | .llrNak port seq => Sys2Proof.Machine.execLlrNak port seq s
  | .llrTimeout port => Sys2Proof.Machine.execLlrTimeout port s
  | .data port f => Sys2Proof.Machine.execData port f s
  | .ack port f => Sys2Proof.Machine.execAck port f s
  | .aresp port f clash => Sys2Proof.Machine.execAresp port f s clash
  | .ackDelayExpiry coord tc => Sys2Proof.Machine.execAckDelayExpiry coord tc s
  | .rtoExpiry coord tc seq => Sys2Proof.Machine.execRtoExpiry coord tc seq s
  | .frameForward port f full => Sys2Proof.Machine.execFrameForward port f s full
  | .frameHoldTimeout port => Sys2Proof.Machine.execFrameHoldTimeout port s
  | .flowReset ag coord => Sys2Proof.Machine.execFlowReset ag coord s
  | .deadSet ag coord => Sys2Proof.Machine.execDeadSet ag coord s
  | .deadClr ag coord => Sys2Proof.Machine.execDeadClr ag coord s
  | .routerIdWrite ag off v => Sys2Proof.Machine.execRouterIdWrite ag off v s
  | .openPortReceive port addr udp payload phy => Sys2Proof.Machine.execOpenPortReceive port addr udp payload s phy
  | .neighbourSolicitation port addr => Sys2Proof.Machine.execNeighbourSolicitation port addr s
  | .cpLaunch site clash => Sys2Proof.Machine.execCpLaunch site s clash
  | .put site tag clash => Sys2Proof.Machine.execPut site tag s clash
  | .get site tag clash => Sys2Proof.Machine.execGet site tag s clash
  | .atomic site tag => Sys2Proof.Machine.execAtomic site tag s
  | .osend site tag => Sys2Proof.Machine.execOsend site tag s
  | .reduceScatter site tag clash => Sys2Proof.Machine.execReduceScatter site tag s clash
  | .allGather site tag clash => Sys2Proof.Machine.execAllGather site tag s clash
  | .allReduce site tag clash => Sys2Proof.Machine.execAllReduce site tag s clash
  | .broadcast site tag clash => Sys2Proof.Machine.execBroadcast site tag s clash
  | .cpComplete site tag clash => Sys2Proof.Machine.execCpComplete site tag s clash
  | .cpFlush ag site clash => Sys2Proof.Machine.execCpFlush ag site s clash
  | .cpResume ag site => Sys2Proof.Machine.execCpResume ag site s
  | .putData tid first => Sys2Proof.Machine.execPutData s tid first
  | .getReq => Sys2Proof.Machine.execGetReq s
  | .getData clash => Sys2Proof.Machine.execGetData s clash
  | .atom => Sys2Proof.Machine.execAtom s
  | .atomPart => Sys2Proof.Machine.execAtomPart s
  | .fadd32 => Sys2Proof.Machine.execFadd32 s
  | .fmax32 => Sys2Proof.Machine.execFmax32 s
  | .fmin32 => Sys2Proof.Machine.execFmin32 s
  | .iadd64 clash => Sys2Proof.Machine.execIadd64 s clash
  | .swap64 clash => Sys2Proof.Machine.execSwap64 s clash
  | .cas64 clash => Sys2Proof.Machine.execCas64 s clash
  | .imax64 clash => Sys2Proof.Machine.execImax64 s clash
  | .imin64 clash => Sys2Proof.Machine.execImin64 s clash
  | .asumWaitTimeout => Sys2Proof.Machine.execAsumWaitTimeout s
  | .combineWindowEnd entry => Sys2Proof.Machine.execCombineWindowEnd entry s
  | .collData clash => Sys2Proof.Machine.execCollData s clash
  | .notready => Sys2Proof.Machine.execNotready s
  | .ready => Sys2Proof.Machine.execReady s
  | .staleRet clash => Sys2Proof.Machine.execStaleRet s clash
  | .status => Sys2Proof.Machine.execStatus s
  | .rankArrive site tag => Sys2Proof.Machine.execRankArrive site tag s
  | .reductionClose site tag clash => Sys2Proof.Machine.execReductionClose site tag s clash
  | .lineupLogWrite => Sys2Proof.Machine.execLineupLogWrite s
  | .replayRelease ag => Sys2Proof.Machine.execReplayRelease ag s
  | .clearCarry ag => Sys2Proof.Machine.execClearCarry ag s
  | .mbStart ag => Sys2Proof.Machine.execMbStart ag s
  | .mbAdmit => Sys2Proof.Machine.execMbAdmit s
  | .mbKick ag => Sys2Proof.Machine.execMbKick ag s
  | .mbScan => Sys2Proof.Machine.execMbScan s
  | .updKick ag => Sys2Proof.Machine.execUpdKick ag s
  | .updPoll => Sys2Proof.Machine.execUpdPoll s
  | .updResume ag => Sys2Proof.Machine.execUpdResume ag s
  | .updateStart => Sys2Proof.Machine.execUpdateStart s
  | .sgd => Sys2Proof.Machine.execSgd s
  | .momentum => Sys2Proof.Machine.execMomentum s
  | .nesterov => Sys2Proof.Machine.execNesterov s
  | .adagrad => Sys2Proof.Machine.execAdagrad s
  | .rmsprop => Sys2Proof.Machine.execRmsprop s
  | .adam => Sys2Proof.Machine.execAdam s
  | .adamw => Sys2Proof.Machine.execAdamw s
  | .lambApply => Sys2Proof.Machine.execLambApply s
  | .normsq => Sys2Proof.Machine.execNormsq s
  | .lambNorm => Sys2Proof.Machine.execLambNorm s
  | .convert => Sys2Proof.Machine.execConvert s
  | .updateComplete => Sys2Proof.Machine.execUpdateComplete s
  | .trGenWrite ag v => Sys2Proof.Machine.execTrGenWrite ag v s
  | .staleCollectiveFinish site tag clash => Sys2Proof.Machine.execStaleCollectiveFinish site tag s clash
  | .trHomeWrite ag v => Sys2Proof.Machine.execTrHomeWrite ag v s
  | .digestFlush ag => Sys2Proof.Machine.execDigestFlush ag s
  | .digestRecordWrite => Sys2Proof.Machine.execDigestRecordWrite s
  | .dgSelectWrite ag off v => Sys2Proof.Machine.execDgSelectWrite ag off v s
  | .injectFeed => Sys2Proof.Machine.execInjectFeed s
  | .whistle => Sys2Proof.Machine.execWhistle s
  | .retire spare => Sys2Proof.Machine.execRetire s spare
  | .suspect spare => Sys2Proof.Machine.execSuspect s spare
  | .suspectSend port => Sys2Proof.Machine.execSuspectSend port s
  | .heartbeatSend => Sys2Proof.Machine.execHeartbeatSend s
  | .heartbeat => Sys2Proof.Machine.execHeartbeat s
  | .refereeTakeover members => Sys2Proof.Machine.execRefereeTakeover members s
  | .rejoin => Sys2Proof.Machine.execRejoin s
  | .agreeStart => Sys2Proof.Machine.execAgreeStart s
  | .agree => Sys2Proof.Machine.execAgree s
  | .agreeWriteStart ag => Sys2Proof.Machine.execAgreeWriteStart ag s
  | .errTailWrite ag v => Sys2Proof.Machine.execErrTailWrite ag v s
  | .errInjArm ag v => Sys2Proof.Machine.execErrInjArm ag v s
  | .eyeMarginCheck inst lane pct => Sys2Proof.Machine.execEyeMarginCheck inst lane pct s
  | .substStart n cause => Sys2Proof.Machine.execSubstStart n cause s
  | .substPlaceRestore => Sys2Proof.Machine.execSubstPlaceRestore s
  | .substDone => Sys2Proof.Machine.execSubstDone s
  | .cfgDigestRecompute => Sys2Proof.Machine.execCfgDigestRecompute s
  | .loadWindow c0 c1 c2 c3 => Sys2Proof.Machine.execLoadWindow c0 c1 c2 c3 s
  | .watchdogKick core => Sys2Proof.Machine.execWatchdogKick core s
  | .watchdogExpiry core => Sys2Proof.Machine.execWatchdogExpiry core s
  | .mpReset ag => Sys2Proof.Machine.execMpReset ag s
  | .mpUpdate ag => Sys2Proof.Machine.execMpUpdate ag s
  | .sqCfgWrite ag q v => Sys2Proof.Machine.execSqCfgWrite ag q v s
  | .callup ag q => Sys2Proof.Machine.execCallup ag q s
  | .yieldStore site v clash => Sys2Proof.Machine.execYieldStore site v s clash
  | .callupCalled q => Sys2Proof.Machine.execCallupCalled q s
  | .callReturn ag q => Sys2Proof.Machine.execCallReturn ag q s
  | .callupReturned q => Sys2Proof.Machine.execCallupReturned q s
  | .deficitWindowEnd q hbm fab repaid => Sys2Proof.Machine.execDeficitWindowEnd q hbm fab repaid s
  | .queueDoorbell p f k tail v => Sys2Proof.Machine.execQueueDoorbell p f k tail v s
  | .cmdNop p f k => Sys2Proof.Machine.execCmdNop p f k s
  | .tileLoad p f k => Sys2Proof.Machine.execTileLoad p f k s
  | .cmdSubst p f k => Sys2Proof.Machine.execCmdSubst p f k s
  | .cmdWhistle p f k spare => Sys2Proof.Machine.execCmdWhistle p f k s spare
  | .cmdInfo p f k => Sys2Proof.Machine.execCmdInfo p f k s
  | .cmdDigest p f k => Sys2Proof.Machine.execCmdDigest p f k s
  | .cmdFlash p f k => Sys2Proof.Machine.execCmdFlash p f k s
  | .hiBar2Write ag p v => Sys2Proof.Machine.execHiBar2Write ag p v s
  | .coldReset env => Sys2Proof.Machine.execColdReset env s
  | .warmReset p env => Sys2Proof.Machine.execWarmReset p env s
  | .deviceReset ag v env => Sys2Proof.Machine.execDeviceReset ag v env s
  | .tileReset ag v => Sys2Proof.Machine.execTileReset ag v s
  | .squadReset ag v => Sys2Proof.Machine.execSquadReset ag v s
  | .portPerst p => Sys2Proof.Machine.execPortPerst p s
  | .functionLevelReset p f => Sys2Proof.Machine.execFunctionLevelReset p f s
  | .powerSample watts => Sys2Proof.Machine.execPowerSample watts s
  | .pwrBrake asserted => Sys2Proof.Machine.execPwrBrake asserted s
  | .thermalLimit sensor temp => Sys2Proof.Machine.execThermalLimit sensor temp s
  | .thermalTrip sensor temp => Sys2Proof.Machine.execThermalTrip sensor temp s
  | .tapCsr dr => Sys2Proof.Machine.execTapCsr dr s
  | .pldmRequest kind auxOnly req => Sys2Proof.Machine.execPldmRequest kind auxOnly req s
  | .pcieLinkUp p width speed => Sys2Proof.Machine.execPcieLinkUp p width speed s
  | .pcieLinkDown p => Sys2Proof.Machine.execPcieLinkDown p s
  | .hbmWindowAccess p off write bytes len => Sys2Proof.Machine.execHbmWindowAccess p off write bytes len s
  | .digestStale => Sys2Proof.Machine.execDigestStale s
  | .trstAssert => Sys2Proof.Machine.execTrstAssert s
  | .portEnable ag port en => Sys2Proof.Machine.execPortEnable ag port en s

end Sys2Proof.Machine
end

