-- ==== Sys2Proof/Machine/Tick.lean ====
section
/-! DEFINITION. What the device does on its own when no command waits: one TIME tick (R305, R308; log entry 2). -/
namespace Sys2Proof.Machine

/-- Does the servo's rate correction apply: TRACKING, or HOLDOVER, which keeps the last one (R308)? -/
def TimeBase.corrected (t : TimeBase) : Bool :=
  match t.mode with
  | .tracking | .holdover => true
  | _ => false

/-- One TIME tick: TB_TIME advances by one, by two or not at all where the rate correction has built up a whole
nanosecond (R305, R308, R319: FREQ in units of 10⁻¹²). -/
def TimeBase.tick (t : TimeBase) : TimeBase :=
  if t.corrected then
    let f := t.frac + t.freq.toInt
    if f ≤ -1000000000000 then { t with frac := f + 1000000000000 }
    else if 1000000000000 ≤ f then { t with time := t.time + 2, frac := f - 1000000000000 }
    else { t with time := t.time + 1, frac := f }
  else { t with time := t.time + 1 }

/-- The device with one nanosecond passed. -/
def State.tick (s : State) : State :=
  { s with time := s.time.tick, body := { s.body with dev.ticks := s.body.dev.ticks + 1 } }

end Sys2Proof.Machine
end

