-- ==== Sys2Proof/Safety.lean ====
section
/-! DEFINITION. The terms that claims about a run are stated in: states with one thing changed, when a core executes
its instruction to the end, and what the time base never leaves. -/
namespace Sys2Proof.Machine

/-- `s` with another body. -/
def State.withBody (s : State) (b : Body) : State := { s with body := b }

/-- `s` with the tile site `n` changed. -/
def State.onSite (s : State) (n : Nat) (f : Site → Site) : State := s.withBody (s.body.modSite n f)

/-- `s` with the control core of site `n` changed. -/
def State.onCore (s : State) (n : Nat) (f : CoreSt → CoreSt) : State :=
  s.onSite n fun t => { t with core := f t.core }

/-- The control core of site `n`. -/
def State.core (s : State) (n : Nat) : CoreSt := (s.body.site n).core

/-- The bank of site `n` that holds an SRAM address. -/
def State.bankAt (s : State) (n a : Nat) : Bank := (s.body.site n).bank (a / 0x10000)

/-- The core of a site may use the bank of an SRAM address now: it owns the bank, the bank is ON, and no injected error
meets the next read of it (R167, R216, R225, R438). -/
def State.coreMayUse (s : State) (n a : Nat) : Bool :=
  (s.bankAt n a).owner == 1 && (s.bankAt n a).isOn && (injected s.body (detOf 1 n) (a / 0x10000)).isNone

/-- The core of a site executes the instruction at its PC next: the site exists, the core neither is stopped, waits nor
stalls, no enabled interrupt comes first, and the instruction can be fetched (R167, R201, R208). -/
def State.coreReady (s : State) (n : Nat) : Bool :=
  decide (n < 408) && (s.core n).running && ((s.core n).dslot.isSome || (s.core n).interrupt.isNone) &&
    s.coreMayUse n (s.core n).pc.toNat

/-- The instruction at PC is not both a delay slot and the end of an active loop body (R181). -/
def State.loopFits (s : State) (n : Nat) : Bool :=
  !((s.core n).loops.atEnd (s.core n).pc && (s.core n).dslot.isSome)

/-- An instruction that may stand anywhere but in a slot that ends a loop body executes to its end. -/
def State.coreRuns (s : State) (n : Nat) : Bool := s.coreReady n && s.loopFits n

/-- The instruction at PC stands in no delay slot and does not end an active loop body: where branches, LOOP, TRAP and
ERET may stand (R176, R181). -/
def State.coreRunsAlone (s : State) (n : Nat) : Bool :=
  s.coreReady n && (s.core n).dslot.isNone && !(s.core n).loops.atEnd (s.core n).pc

/-- The instruction at PC stands in no delay slot: where waits and fences may stand (R176). -/
def State.coreRunsNoSlot (s : State) (n : Nat) : Bool := s.coreReady n && (s.core n).dslot.isNone

/-- The core of a site retires an instruction. -/
def State.retires (s : State) (n : Nat) : State := s.onCore n CoreSt.retire

/-- Does the core of a site wait for this, not stopped? -/
def State.waitsFor (s : State) (n : Nat) (w : Wait) : Bool := (s.core n).wait == some w && !(s.core n).stopped

/-- The squad whose call-up is PREEMPTING or CALLED and counts a tile (R476). -/
def Body.callupOf (b : Body) (tile : Nat) : Option Nat :=
  (List.range 8).find? fun q =>
    let st := b.field (oSq q 0x28) 0 2
    let base := b.field (oSq q 8) 8 9
    (st == 1 || st == 2) && base ≤ tile && tile < base + b.field (oSq q 8) 17 7

/-- The yield word of a call-up, as an SRAM address (R470). -/
def Body.yieldWord (b : Body) (q : Nat) : Nat := b.field (oSq q 0x10) 0 18 * 8

/-- `s` with bytes that the core of a site stored in its SRAM; words at which it lost a collision stay (R224). -/
def State.storesSram (s : State) (clash : List Nat) (n a : Nat) (v : List Byte) : State :=
  s.withBody (unitWrite { s.env with clash := clash } 1 n (a, v.length) (s.body.mem.write (siteBase n + a) v) s.body).2

/-- The scalar register of an instruction takes a value and the instruction retires. -/
def State.writesX (s : State) (n : Nat) (rd : RegNo) (v : Word64) : State := s.onCore n fun c => (c.setX rd v).retire

/-- The FP register of an instruction takes a value and the instruction retires. -/
def State.writesF (s : State) (n : Nat) (rd : RegNo) (v : Word64) : State := s.onCore n fun c => (c.setF rd v).retire

/-- The FP register takes a result, FFLAGS collects its flags, FPRC counts an instruction that resolved to SR, and the
instruction retires (R173). -/
def State.fpDone (s : State) (n : Nat) (sr : Bool) (rd : RegNo) (r : Nat × FFlags) : State :=
  s.onCore n fun c => (((c.setF rd (BitVec.ofNat 64 r.1)).addFlags r.2).countFp sr).retire

/-- The same for a result that goes to a scalar register. -/
def State.fpDoneX (s : State) (n : Nat) (sr : Bool) (rd : RegNo) (r : Nat × FFlags) : State :=
  s.onCore n fun c => (((c.setX rd (BitVec.ofNat 64 r.1)).addFlags r.2).countFp sr).retire

/-- Does an FP instruction of a core resolve to SR (R186)? -/
def State.coreSr (s : State) (n : Nat) (rdef rsel : Bool) : Bool := resolveSr (s.core n).fmodeUsed rdef rsel

/-- A core takes a synchronous exception (R195, R196, R203). -/
def State.raises (s : State) (n cause addr : Nat) : State := s.withBody (takeExc s.env n cause addr s.body)

/-- A command of an engine leaves everything else: the other sites, the core of this one, memory, register words, time. -/
def State.sameButEngines (s t : State) (n : Nat) : Prop :=
  (∀ m, m ≠ n → t.body.site m = s.body.site m) ∧ t.core n = s.core n ∧ (t.body.site n).banks = (s.body.site n).banks ∧
  (∀ a, t.body.mem.get a = s.body.mem.get a) ∧ (∀ o, t.body.csr o = s.body.csr o) ∧ t.time = s.time

/-- `s` with the body that a link row leaves: what the time base heard through links that went down is forgotten, and without
its parent it is in HOLDOVER (R310). -/
def State.afterLinks (s : State) (b : Body) : State :=
  { s with time := (s.time.withLinks b).1, body := (s.time.withLinks b).2 }

/-- A frame passes the checks of the link and names this system's address at a torus port that carries traffic, without
link retry and without an injection armed (R331 to R333, R338). -/
def State.linkTakes (s : State) (p : Nat) (f : Frame) : Bool :=
  isTorus p && s.body.carries p && !s.body.llr p && f.phy == PhyIn.clean && !armedAt s.body (detOf 9 p) &&
    f.prefixHi.toNat == s.body.csr (oRtr 0x10) && f.udp.toNat == s.body.field (oRtr 0x18) 0 16

/-- Such a frame for this device, whole and of its flow's incarnation (R336, R338). -/
def State.takesFrame (s : State) (p : Nat) (f : Frame) : Bool :=
  s.linkTakes p f && f.dst.toNat == s.body.coord && f.good &&
    (s.body.flow (flowKey f.src.toNat f.tc.toNat)).inc == some f.inc

/-- A port is in state FAULT with a cause (R323, R353). -/
def State.faulted (t : State) (p cause : Nat) : Prop :=
  t.body.linkState p = 4 ∧ t.body.field (oFb p 0x10) 24 4 = cause

/-- A port trains: every bad-lane mark cleared, nothing held back, no cause (R329, R353). -/
def State.trains (t : State) (p : Nat) : Prop :=
  t.body.linkState p = 1 ∧ (t.body.port p).bad = 0 ∧ (t.body.port p).locked = false ∧ (t.body.port p).replay = [] ∧
    t.body.field (oFb p 0x10) 24 4 = 0

/-- The head of an engine has launched with what it captured, or launches now: its descriptors are captured or can be read,
their kickoffs are due in time, and its checks pass with status `st` (R74, R133). -/
def Eng.launches (x : Eng) (e : Env) (waits : Bool) (ds : List Nat) (st : Nat) : Bool :=
  if x.launched then x.cap.isSome
  else (x.cap.isSome || !waits) && (kickoffsOf ds).all (fun k => kickDue e.now k && !kickLate e.now k) && st == mxOk

/-- The matrix instruction at the head of a site's queue executes: it has launched, or its kickoffs are due in time and
its checks pass; the banks of its operands are still owned and none wakes, and no injected error waits for them (R74, R78, R79,
R102, R106, R225). -/
def State.mxRuns (s : State) (n : Nat) (q : QEntry) (func : Nat) : Bool :=
  let t := s.body.site n
  let ds := mxPeek s.body n q
  decide (n < 408) && t.mx.eng.head == some q && q.mxFunc == func && (decide (func < 6) || t.mx.drains.isEmpty) &&
    t.mx.eng.launches s.env (t.wakingAny (mxDescRanges q)) ds (mxStatus t ds q) &&
    t.ownsAll 2 (mxUses t.mx ds q) && !t.wakingAny (mxUses t.mx ds q) &&
    !armedAt s.body (detOf 1 n) && !armedAt s.body (detOf 2 n)

/-- The vector instruction at the head of a site's queue executes: it has launched, or its kickoffs are due in time and
its checks pass, no bank that it uses wakes, and no injected error waits for it (R132, R133, R156, R225). -/
def State.vxRuns (s : State) (n : Nat) (q : QEntry) (func : Nat) : Bool :=
  let t := s.body.site n
  let ds := vxPeek s.body n q
  decide (n < 408) && t.vx.eng.head == some q && q.mxFunc == func &&
    t.vx.eng.launches s.env (wakingIn t (vxTable t.vx q)) ds (vxStatus t ds q) &&
    !t.wakingAny (vxUses s.body n ds q) && !armedAt s.body (detOf 1 n) && !armedAt s.body (detOf 3 n)

/-- The body with the head of the matrix queue launched on captured descriptors. -/
def Body.mxLaunched (b : Body) (n : Nat) (c : Option (List Nat)) : Body :=
  b.modMx n fun x => { x with eng := { x.eng with launched := true, cap := c } }

/-- `b'` is `b`, but that the head of the matrix queue has launched on what it captured. -/
def Body.mxHead (b : Body) (n : Nat) (b' : Body) : Prop := b' = b ∨ ∃ c, b' = b.mxLaunched n c

/-- The body with the head of the vector queue launched on captured descriptors. -/
def Body.vxLaunched (b : Body) (n : Nat) (c : Option (List Nat)) : Body :=
  b.modVx n fun x => { x with eng := { x.eng with launched := true, cap := c } }

/-- `b'` is `b`, but that the head of the vector queue has launched on what it captured. -/
def Body.vxHead (b : Body) (n : Nat) (b' : Body) : Prop := b' = b ∨ ∃ c, b' = b.vxLaunched n c

/-- What the time base never leaves (R308, R310, R319): TB_CFG holds no reserved value, MAXSLEW is 1 to 200, PTP_PORT
names an open port, reserved bits read as zero, the rate correction stays within 200 ppm and its part below a nanosecond
within a nanosecond, the parent is a torus port or none, and without a parent the hop count is 0 at a root and 63
elsewhere. -/
def TimeBase.wf (t : TimeBase) : Bool :=
  bitsOf t.cfg.toNat 0 2 != 3 && bitsOf t.cfg.toNat 4 2 != 0 &&
    decide (1 ≤ bitsOf t.cfg.toNat 8 8) && decide (bitsOf t.cfg.toNat 8 8 ≤ 200) &&
    !bitOf t.cfg.toNat 2 && bitsOf t.cfg.toNat 6 2 == 0 &&
    decide (t.freq.toInt.natAbs ≤ 200000000) && decide (t.frac.natAbs ≤ 1000000000000) &&
    (t.parent == 0xF || decide (t.parent.toNat < 8)) &&
    (!bitOf t.cfg.toNat 3 || t.parent == 0xF) &&
    (t.parent != 0xF || t.hops == if bitOf t.cfg.toNat 3 then 0 else 63)

end Sys2Proof.Machine

namespace Sys2Proof

/-- The rows that are instructions of the control core, but for the bank instructions. -/
def Instr.isCore (i : Instr) : Bool :=
  match i with
  | .add .. | .sub .. | .and .. | .or .. | .xor .. | .shl .. | .shr .. | .sar .. | .lt .. | .ltu .. | .mul ..
    | .mulhs .. | .mulhu .. | .div .. | .divu .. | .mod .. | .modu .. | .addk .. | .andk .. | .ork .. | .xork ..
    | .ltk .. | .shk .. | .upk .. | .l64 .. | .l32s .. | .l32z .. | .l8z .. | .s64 .. | .s32 .. | .s8 ..
    | .fl64 .. | .fl32 .. | .fs64 .. | .fs32 .. | .fma .. | .fadd .. | .fsub .. | .fmul .. | .fdiv .. | .fsqrt ..
    | .fmin .. | .fmax .. | .fceq .. | .fclt .. | .fcle .. | .fcvW .. | .fcvToi .. | .fcvFromi .. | .fmovx ..
    | .xmovf .. | .fcvTodf .. | .fcvFromdf .. | .breq .. | .brne .. | .brlt .. | .brge .. | .brltu .. | .brgeu ..
    | .jmp .. | .call .. | .jmpr .. | .loop .. | .waitc .. | .waitcSatisfied .. | .waitk .. | .waitkDue ..
    | .fenceM .. | .fenceE .. | .pfence .. | .fenceA .. | .fenceComplete .. | .sprd .. | .spwr .. | .spset ..
    | .spclr .. | .vsum .. | .trap .. | .eret .. | .interruptEntry .. | .yieldStore .. | .engineIssue .. => true
  | _ => false

end Sys2Proof
end

