-- ==== Sys2Proof/Certificates/Slice0/Obligations.lean ====
section
/-! DEFINITION. The statements for the provers. Rules R<n> are those of the spec; a clause that rests on a choice of the
model names its log entry. -/
open Sys2Proof Sys2Proof.Machine

-- The machine as a whole.

/-- A step runs the command at the front of the queue on the state with the queue's rest. -/
def Obligations.StepRunsFrontCommand : Prop :=
  ∀ (c : Instr) (r : List Instr) (s : State), s.pending = c :: r → step s = exec c { s with pending := r }

/-- With nothing waiting one nanosecond passes (log entry 2): only the time base and the tick count move; without a rate
correction TB_TIME advances by one; with one, what TB_TIME gains beside the part below a nanosecond is one nanosecond
and FREQ (R305, R308). -/
def Obligations.IdleStepIsOneTick : Prop :=
  ∀ s : State, s.pending = [] → ∃ t, step s = .next t ∧ t.pending = [] ∧ t.fuse = s.fuse ∧
    t.body = { s.body with dev.ticks := s.body.dev.ticks + 1 } ∧
    t.time = { s.time with time := t.time.time, frac := t.time.frac } ∧
    (s.time.corrected = false → t.time.time = s.time.time + 1 ∧ t.time.frac = s.time.frac) ∧
    (s.time.corrected = true → ∃ d : Nat, d ≤ 2 ∧ t.time.time = s.time.time + BitVec.ofNat 64 d ∧
      (d : Int) * 1000000000000 + t.time.frac = 1000000000000 + s.time.frac + s.time.freq.toInt)

/-- No command stops the device, and none touches the queue or the fuses: every command answers a state in which only
the time base and the body may differ. -/
def Obligations.EveryCommandAnswersAState : Prop :=
  ∀ (c : Instr) (s : State), ∃ (t : TimeBase) (b : Body), exec c s = .next { s with time := t, body := b }

/-- What reset leaves: TB_TIME 0 in INIT with its registers as R319 lists them; a core as R204 and R208 to R212 say, at
each site 0 to 407; banks owned by the owner code 6 with no guest and no lock (R228), ON at the sites the substitution
map names and OFF at the others (R29); every fuse, every byte of memory and the queue empty (log entries 6 and 7: the
model's choice). -/
def Obligations.ResetValues : Prop :=
  State.reset.time.time = 0 ∧ State.reset.time.mode = .init ∧ State.reset.time.cfg = 0x006430 ∧
  State.reset.time.hops = 63 ∧ State.reset.time.parent = 0xF ∧ State.reset.time.freq = 0 ∧
  State.reset.pending = [] ∧
  (∀ n, n < 408 →
    (State.reset.core n).stopped = true ∧ (State.reset.core n).priv = true ∧ (State.reset.core n).ie = false ∧
    (State.reset.core n).fmode = 0x21 ∧ (State.reset.core n).pc = 0 ∧ (State.reset.core n).evbase = 0 ∧
    (State.reset.core n).fflags = 0 ∧ (State.reset.core n).epend = 0 ∧ (State.reset.core n).ien = 0 ∧
    (State.reset.core n).dslot = none ∧ (State.reset.core n).wait = none) ∧
  (∀ n a, n < 408 → (State.reset.bankAt n a).owner = 6 ∧ (State.reset.bankAt n a).guest = 0 ∧
    (State.reset.bankAt n a).lock = false ∧ (State.reset.bankAt n a).isOn = decide (n < 384)) ∧
  (∀ a, State.reset.body.mem.get a = 0)

/-- The time base invariant holds at reset. -/
def Obligations.ResetTimeBaseWellFormed : Prop := State.reset.time.wf = true

/-- Every step keeps the time base invariant, from every state (R308, R310, R319). -/
def Obligations.StepKeepsTimeBaseWellFormed : Prop :=
  ∀ s t : State, s.time.wf = true → step s = .next t → t.time.wf = true

/-- TB_TIME never goes back: in any state whose time base is well formed and whose TB_TIME is not about to wrap, a step
that is not a cold reset leaves TB_TIME where it was or later (R306, R308). -/
def Obligations.StepNeverTurnsTimeBack : Prop :=
  ∀ s t : State, s.time.wf = true → s.time.time.toNat + 2 < 2 ^ 64 → (∀ env, s.pending.head? ≠ some (.coldReset env)) →
    step s = .next t → s.time.time.toNat ≤ t.time.time.toNat

-- The control core: results.

/-- R171: what each OPR row leaves. The core executes the instruction to its end: rd takes the result (a write of x0 is
discarded, R166), the instruction retires, and nothing else in the whole state changes. Shifts use rs2[5:0]; a zero
divisor gives the quotient 0 and the dividend as remainder; −2^63 DIV −1 is 2^63 − 1 and −2^63 MOD −1 is 0. -/
def Obligations.OprResults : Prop :=
  ∀ (s : State) (n : Nat) (rd rs1 rs2 : RegNo), s.coreRuns n = true →
    let a := (s.core n).getX rs1
    let b := (s.core n).getX rs2
    exec (.add n rd rs1 rs2) s = .next (s.writesX n rd (a + b)) ∧
    exec (.sub n rd rs1 rs2) s = .next (s.writesX n rd (a - b)) ∧
    exec (.and n rd rs1 rs2) s = .next (s.writesX n rd (a &&& b)) ∧
    exec (.or n rd rs1 rs2) s = .next (s.writesX n rd (a ||| b)) ∧
    exec (.xor n rd rs1 rs2) s = .next (s.writesX n rd (a ^^^ b)) ∧
    exec (.shl n rd rs1 rs2) s = .next (s.writesX n rd (a <<< (b.extractLsb' 0 6).toNat)) ∧
    exec (.shr n rd rs1 rs2) s = .next (s.writesX n rd (a >>> (b.extractLsb' 0 6).toNat)) ∧
    exec (.sar n rd rs1 rs2) s = .next (s.writesX n rd (a.sshiftRight (b.extractLsb' 0 6).toNat)) ∧
    exec (.lt n rd rs1 rs2) s = .next (s.writesX n rd (if a.toInt < b.toInt then 1 else 0)) ∧
    exec (.ltu n rd rs1 rs2) s = .next (s.writesX n rd (if a.toNat < b.toNat then 1 else 0)) ∧
    exec (.mul n rd rs1 rs2) s = .next (s.writesX n rd (a * b)) ∧
    exec (.mulhs n rd rs1 rs2) s = .next (s.writesX n rd (BitVec.ofInt 64 (a.toInt * b.toInt / 2 ^ 64))) ∧
    exec (.mulhu n rd rs1 rs2) s = .next (s.writesX n rd (BitVec.ofNat 64 (a.toNat * b.toNat / 2 ^ 64))) ∧
    exec (.div n rd rs1 rs2) s = .next (s.writesX n rd
      (if b = 0 then 0 else if a = BitVec.intMin 64 ∧ b = -1 then BitVec.intMax 64
       else BitVec.ofInt 64 (a.toInt.tdiv b.toInt))) ∧
    exec (.divu n rd rs1 rs2) s = .next (s.writesX n rd (if b = 0 then 0 else BitVec.ofNat 64 (a.toNat / b.toNat))) ∧
    exec (.mod n rd rs1 rs2) s = .next (s.writesX n rd
      (if b = 0 then a else if a = BitVec.intMin 64 ∧ b = -1 then 0 else BitVec.ofInt 64 (a.toInt.tmod b.toInt))) ∧
    exec (.modu n rd rs1 rs2) s = .next (s.writesX n rd (if b = 0 then a else BitVec.ofNat 64 (a.toNat % b.toNat)))

/-- R170: what each immediate row leaves. ADDK, LTK and UPK extend the sign of IMM, ANDK, ORK and XORK fill with zeros;
SHK shifts by IMM[5:0] in the way IMM[7:6] names, and with IMM[7:6] = 0b11 or a bit of IMM[15:8] set it raises ILLEGAL. -/
def Obligations.ImmediateResults : Prop :=
  ∀ (s : State) (n : Nat) (rd rs1 : RegNo) (imm : BitVec 16), s.coreRuns n = true →
    let a := (s.core n).getX rs1
    let k := (imm.extractLsb' 0 6).toNat
    exec (.addk n rd rs1 imm) s = .next (s.writesX n rd (a + imm.signExtend 64)) ∧
    exec (.andk n rd rs1 imm) s = .next (s.writesX n rd (a &&& imm.zeroExtend 64)) ∧
    exec (.ork n rd rs1 imm) s = .next (s.writesX n rd (a ||| imm.zeroExtend 64)) ∧
    exec (.xork n rd rs1 imm) s = .next (s.writesX n rd (a ^^^ imm.zeroExtend 64)) ∧
    exec (.ltk n rd rs1 imm) s = .next (s.writesX n rd (if a.toInt < imm.toInt then 1 else 0)) ∧
    exec (.upk n rd rs1 imm) s = .next (s.writesX n rd (imm.signExtend 64 <<< 16)) ∧
    (imm.extractLsb' 6 10 = 0 → exec (.shk n rd rs1 imm) s = .next (s.writesX n rd (a <<< k))) ∧
    (imm.extractLsb' 6 10 = 1 → exec (.shk n rd rs1 imm) s = .next (s.writesX n rd (a >>> k))) ∧
    (imm.extractLsb' 6 10 = 2 → exec (.shk n rd rs1 imm) s = .next (s.writesX n rd (a.sshiftRight k))) ∧
    (3 ≤ (imm.extractLsb' 6 10).toNat → exec (.shk n rd rs1 imm) s = .next (s.raises n 0x02 (wordI 0x06 rd rs1 imm)))

/-- The frame of an instruction that writes one scalar register and retires: x0 still reads as zero, every other scalar
register, every FP register, every special register, every other site, every register word and every byte of memory
reads as before (R166). -/
def Obligations.RegisterWriteFrame : Prop :=
  ∀ (s : State) (n : Nat) (rd : RegNo) (v : Word64),
    let t := s.writesX n rd v
    (t.core n).getX 0 = 0 ∧ (rd ≠ 0 → (t.core n).getX rd = v) ∧
    (∀ r : RegNo, r ≠ rd → (t.core n).getX r = (s.core n).getX r) ∧ (∀ r : RegNo, (t.core n).getF r = (s.core n).getF r) ∧
    (∀ m, m ≠ n → t.body.site m = s.body.site m) ∧ (∀ o, t.body.csr o = s.body.csr o) ∧
    (∀ a, t.body.mem.get a = s.body.mem.get a) ∧ t.time = s.time ∧
    (t.core n).fmode = (s.core n).fmode ∧ (t.core n).fflags = (s.core n).fflags ∧ (t.core n).step = (s.core n).step ∧
    (t.core n).fprc = (s.core n).fprc ∧ (t.core n).cc = (s.core n).cc ∧ (t.core n).epend = (s.core n).epend ∧
    (t.core n).epc = (s.core n).epc ∧ (t.core n).excInfo = (s.core n).excInfo ∧
    (t.core n).excAddr = (s.core n).excAddr ∧ (t.core n).priv = (s.core n).priv ∧ (t.core n).ie = (s.core n).ie ∧
    (t.core n).ppriv = (s.core n).ppriv ∧ (t.core n).pie = (s.core n).pie ∧ (t.core n).evbase = (s.core n).evbase ∧
    (t.core n).scratch = (s.core n).scratch ∧ (t.core n).ien = (s.core n).ien ∧ (t.core n).ipend = (s.core n).ipend

/-- R175, R178: where an instruction that is no branch goes. In a delay slot its branch decides: the target if taken, the
branch address + 8 if not. Elsewhere the next address, except at LE of an active level: LC counts down and the level
continues at LS while LC is not zero; level 1 is asked first, and where it ends level 0's decision follows. -/
def Obligations.RetireGoesWhere : Prop :=
  ∀ c : CoreSt,
    (∀ d, c.dslot = some d → d.taken = true → c.retire.pc = d.target ∧ c.retire.dslot = none) ∧
    (∀ d, c.dslot = some d → d.taken = false → c.retire.pc = d.branch + 8 ∧ c.retire.dslot = none) ∧
    (c.dslot = none → c.loops.atEnd c.pc = false → c.retire.pc = c.pc + 4 ∧ c.retire.loops = c.loops) ∧
    (c.dslot = none → c.loops.l1.lc ≠ 0 → c.loops.l1.le = c.pc → c.loops.l1.lc ≠ 1 →
      c.retire.pc = c.loops.l1.ls ∧ c.retire.loops = { c.loops with l1.lc := c.loops.l1.lc - 1 }) ∧
    (c.dslot = none → (c.loops.l1.lc = 0 ∨ c.loops.l1.le ≠ c.pc) → c.loops.l0.lc ≠ 0 → c.loops.l0.le = c.pc →
      c.loops.l0.lc ≠ 1 →
      c.retire.pc = c.loops.l0.ls ∧ c.retire.loops = { c.loops with l0.lc := c.loops.l0.lc - 1 }) ∧
    (c.dslot = none → (c.loops.l1.lc = 0 ∨ c.loops.l1.le ≠ c.pc) → c.loops.l0.lc = 1 → c.loops.l0.le = c.pc →
      c.retire.pc = c.pc + 4 ∧ c.retire.loops = { c.loops with l0.lc := 0 }) ∧
    (c.dslot = none → c.loops.l1.lc = 1 → c.loops.l1.le = c.pc → (c.loops.l0.lc = 0 ∨ c.loops.l0.le ≠ c.pc) →
      c.retire.pc = c.pc + 4 ∧ c.retire.loops = { c.loops with l1.lc := 0 }) ∧
    (c.dslot = none → c.loops.l1.lc = 1 → c.loops.l1.le = c.pc → c.loops.l0.lc ≠ 0 → c.loops.l0.le = c.pc →
      c.retire.pc = (if c.loops.l0.lc = 1 then c.pc + 4 else c.loops.l0.ls) ∧
      c.retire.loops = { c.loops with l1.lc := 0, l0.lc := c.loops.l0.lc - 1 })

/-- R59, R141, R172, R173: the FP instructions. Arithmetic takes the format of S and the rounding of R186, sets FFLAGS and
counts in FPRC; minimum, maximum, compares and moves of bits round nothing and count nothing, and a compare gives 1 or 0 in
a scalar register; a conversion to a format that holds every source value rounds nothing, the others round, and to a 64-bit
integer they saturate as R58 says. -/
def Obligations.FpInstructions : Prop :=
  (∀ (s : State) (n : Nat) (o : OpfBits), s.coreRuns n = true → o.rsv = 0 →
     let f := fpFmt o.s
     let a := (s.core n).fval f o.rs1
     let b := (s.core n).fval f o.rs2
     let sr := s.coreSr n o.rdef o.rsel
     let sel := coreSel s.body n sr
     exec (.fadd n o) s = .next (s.fpDone n sr o.rd (fpAdd f a b sel)) ∧
     exec (.fsub n o) s = .next (s.fpDone n sr o.rd (fpSub f a b sel)) ∧
     exec (.fmul n o) s = .next (s.fpDone n sr o.rd (fpMul f a b sel)) ∧
     exec (.fdiv n o) s = .next (s.fpDone n sr o.rd (fpDiv f a b sel)) ∧
     (o.rs2 = 0 → exec (.fsqrt n o) s = .next (s.fpDone n sr o.rd (fpSqrt f a sel))) ∧
     (o.rs2 ≠ 0 → exec (.fsqrt n o) s = .next (s.raises n 0x02 (wordF o 0x04))) ∧
     (∀ fd fs1 fs2 fs3 sg rdef rsel,
       let g := fpFmt sg
       let r := s.coreSr n rdef rsel
       exec (.fma n fd fs1 fs2 fs3 sg rdef rsel 0) s = .next (s.fpDone n r fd
         (fpFma g ((s.core n).fval g fs1) ((s.core n).fval g fs2) ((s.core n).fval g fs3) (coreSel s.body n r))))) ∧
  (∀ (s : State) (n : Nat) (o : OpfBits), s.coreRuns n = true → o.rsv = 0 →
     let f := fpFmt o.s
     let a := (s.core n).fval f o.rs1
     let b := (s.core n).fval f o.rs2
     exec (.fmin n o) s = .next (s.fpDone n false o.rd ((fpMinMax false f a b).1, (fpMinMax false f a b).2.1)) ∧
     exec (.fmax n o) s = .next (s.fpDone n false o.rd ((fpMinMax true f a b).1, (fpMinMax true f a b).2.1)) ∧
     exec (.fceq n o) s = .next (s.fpDoneX n false o.rd (b2n (fpCompare 0 f a b).1, (fpCompare 0 f a b).2)) ∧
     exec (.fclt n o) s = .next (s.fpDoneX n false o.rd (b2n (fpCompare 1 f a b).1, (fpCompare 1 f a b).2)) ∧
     exec (.fcle n o) s = .next (s.fpDoneX n false o.rd (b2n (fpCompare 2 f a b).1, (fpCompare 2 f a b).2)) ∧
     exec (.fmovx n o) s = .next (s.writesX n o.rd (BitVec.ofNat 64 a)) ∧
     exec (.xmovf n o) s =
       .next (s.writesF n o.rd (BitVec.ofNat 64 (((s.core n).getX o.rs1).toNat % 2 ^ (if o.s then 32 else 64))))) ∧
  (∀ (s : State) (n : Nat) (o : OpfBits), s.coreRuns n = true → o.rsv = 0 →
     let f := fpFmt o.s
     let g := fpFmt (!o.s)
     let d := fmodeDfmt (s.core n).fmodeUsed
     let sr := s.coreSr n o.rdef o.rsel
     let narrow := fun dst src => !holdsAll dst src && sr
     exec (.fcvW n o) s = .next (s.fpDone n (narrow f g) o.rd
       (convertElem g f ((s.core n).fval g o.rs1) (coreSel s.body n (narrow f g)))) ∧
     exec (.fcvTodf n o) s = .next (s.fpDone n (narrow d f) o.rd
       (convertElem f d ((s.core n).fval f o.rs1) (coreSel s.body n (narrow d f)))) ∧
     exec (.fcvFromdf n o) s = .next (s.fpDone n (narrow f d) o.rd
       (convertElem d f ((s.core n).fval d o.rs1) (coreSel s.body n (narrow f d)))) ∧
     exec (.fcvFromi n o) s = .next (s.fpDone n sr o.rd
       (roundFloat f (Num.ofInt ((s.core n).getX o.rs1).toInt) (coreSel s.body n sr))) ∧
     exec (.fcvToi n o) s =
       (let x := readElem f ((s.core n).fval f o.rs1)
        let i := roundInt 64 x.1 (coreSel s.body n sr)
        .next (s.fpDoneX n sr o.rd (uBits 64 i.1, x.2 ||| i.2))))

-- The control core: memory, control flow, system.

/-- R168, R170: loads from the tile's own SRAM. At an address below 2^21, aligned to the access, in an ON bank that the
core owns, the register takes the little-endian bytes: L32S extends the sign, the others fill with zeros. -/
def Obligations.SramLoadResults : Prop :=
  ∀ (s : State) (n : Nat) (rd rs1 : RegNo) (imm : BitVec 16), s.coreRuns n = true →
    let a := ((s.core n).getX rs1 + imm.signExtend 64).toNat
    let v := s.body.mem.num (siteBase n + a)
    a < 2 ^ 21 → s.coreMayUse n a = true →
    (a % 8 = 0 → exec (.l64 n rd rs1 imm) s = .next (s.writesX n rd (BitVec.ofNat 64 (v 8)))) ∧
    (a % 4 = 0 → exec (.l32s n rd rs1 imm) s = .next (s.writesX n rd ((BitVec.ofNat 32 (v 4)).signExtend 64))) ∧
    (a % 4 = 0 → exec (.l32z n rd rs1 imm) s = .next (s.writesX n rd (BitVec.ofNat 64 (v 4)))) ∧
    exec (.l8z n rd rs1 imm) s = .next (s.writesX n rd (BitVec.ofNat 64 (v 1))) ∧
    (a % 8 = 0 → exec (.fl64 n rd rs1 imm) s = .next (s.writesF n rd (BitVec.ofNat 64 (v 8)))) ∧
    (a % 4 = 0 → exec (.fl32 n rd rs1 imm) s = .next (s.writesF n rd (BitVec.ofNat 64 (v 4))))

/-- R168, R170: stores to the tile's own SRAM, which no call-up counts as a yield. The bytes stored are the low bytes of
the source register, least significant first, at the address that the load rows use, but for the words at which the
store loses a collision; nothing else changes but the instruction's retiring. Without a collision they are all written. -/
def Obligations.SramStoreResults : Prop :=
  ∀ (s : State) (n : Nat) (rd rs1 : RegNo) (imm : BitVec 16) (cl : List Nat), s.coreRuns n = true →
    let a := ((s.core n).getX rs1 + imm.signExtend 64).toNat
    let x := ((s.core n).getX rd).toNat
    let f := ((s.core n).getF rd).toNat
    let put := fun (v k : Nat) => (s.storesSram cl n a (leBytes v k)).retires n
    a < 2 ^ 21 → (s.bankAt n a).owner = 1 → (s.bankAt n a).isOn = true → s.body.tileOf n = none ∨
      (∃ t, s.body.tileOf n = some t ∧ s.body.callupOf t = none) →
    (a % 8 = 0 → exec (.s64 n rd rs1 imm cl) s = .next (put x 8)) ∧
    (a % 4 = 0 → exec (.s32 n rd rs1 imm cl) s = .next (put x 4)) ∧
    exec (.s8 n rd rs1 imm cl) s = .next (put x 1) ∧
    (a % 8 = 0 → exec (.fs64 n rd rs1 imm cl) s = .next (put f 8)) ∧
    (a % 4 = 0 → exec (.fs32 n rd rs1 imm cl) s = .next (put f 4)) ∧
    (∀ v, (∀ w ∈ cl, w / 8 * 8 + 8 ≤ siteBase n + a ∨ siteBase n + a + v.length ≤ w / 8 * 8) →
      s.storesSram cl n a v = s.withBody { s.body with mem := s.body.mem.write (siteBase n + a) v })

/-- The frame of a store to the tile's own SRAM, whatever the instruction ends in, from every state whose memory is in its
canonical form: the memory keeps that form, and every byte outside the stored ones reads as before. And of every unit's
write of its tile's SRAM (R214, R222, R224): it loses a collision in the words that its command names among those it touches,
in a bank where the mesh remote port, or for an engine or the core the copy engine, is the other unit that may write;
there the bytes stay as they were, and its other bytes land. Choices of the model in it: log entry 62. -/
def Obligations.SramStoreFrame : Prop :=
  (∀ (s t : State) (n : Nat) (rd rs1 : RegNo) (imm : BitVec 16) (cl : List Nat), s.body.mem.wf = true →
      let a := ((s.core n).getX rs1 + imm.signExtend 64).toNat
      let keeps := fun (i : Instr) (k : Nat) => exec i s = .next t → t.body.mem.wf = true ∧
        ∀ p, p < siteBase n + a ∨ siteBase n + a + k ≤ p → t.body.mem.get p = s.body.mem.get p
      a < 2 ^ 21 →
      keeps (.s64 n rd rs1 imm cl) 8 ∧ keeps (.s32 n rd rs1 imm cl) 4 ∧ keeps (.s8 n rd rs1 imm cl) 1 ∧
      keeps (.fs64 n rd rs1 imm cl) 8 ∧ keeps (.fs32 n rd rs1 imm cl) 4) ∧
  (∀ (e : Env) (b : Body) (u n lo k : Nat) (m : Mem), b.mem.wf = true → m.wf = true →
      let r := unitWrite e u n (lo, k) m b
      let hit := fun w => (∃ c ∈ e.clash, w = c / 8 * 8) ∧ siteBase n + lo < w + 8 ∧ w < siteBase n + lo + k ∧
        ((b.site n).bank ((w - siteBase n) / 0x10000)).rival u = true
      (r.1 = true ↔ ∃ w, hit w) ∧ r.2 = { b with mem := r.2.mem } ∧ r.2.mem.wf = true ∧
      (∀ p, (hit (p / 8 * 8) → r.2.mem.get p = b.mem.get p) ∧ (¬ hit (p / 8 * 8) → r.2.mem.get p = m.get p)) ∧
      (∀ k : Bank, (k.rival u = true ↔ ((k.owner = u ∧ (k.guest = 6 ∨ (k.guest = 5 ∧ u ≠ 6))) ∨
        (k.owner ≠ u ∧ k.guest = u ∧ (k.owner = 6 ∨ (k.owner = 5 ∧ u ≠ 6)))))))

/-- The memory is in its canonical form at reset (addresses rising, no listed byte equal to what an unlisted one reads
as), and every instruction of the control core but the bank instructions keeps it there, from every state and on every
path: its own store, a store through the pager, a stall, an exception. -/
def Obligations.CoreKeepsMemoryCanonical : Prop :=
  State.reset.body.mem.wf = true ∧
  ∀ (i : Instr) (s t : State), i.isCore = true → s.body.mem.wf = true → exec i s = .next t → t.body.mem.wf = true

/-- R168: where a load or store of the core traps, stalls or reaches the paged memory. A misaligned address raises
MISALIGNED (0x05); a bank that the core does not own or that has no power raises ACCESS (0x06); a bank that wakes, a page
in transit and a page fault stall it; an address from 2^48 up, a tile of no squad and a refused page raise PAGE_PRIV
(0x07). -/
def Obligations.LoadStoreTraps : Prop :=
  ∀ (s : State) (n : Nat) (rd rs1 : RegNo) (imm : BitVec 16) (cl : List Nat), s.coreRuns n = true →
    let va := (s.core n).getX rs1 + imm.signExtend 64
    let a := va.toNat
    let k := s.bankAt n a
    (a % 8 ≠ 0 → exec (.l64 n rd rs1 imm) s = .next (s.raises n 0x05 a) ∧
      exec (.s64 n rd rs1 imm cl) s = .next (s.raises n 0x05 a) ∧
      exec (.fl64 n rd rs1 imm) s = .next (s.raises n 0x05 a) ∧
      exec (.fs64 n rd rs1 imm cl) s = .next (s.raises n 0x05 a)) ∧
    (a % 4 ≠ 0 → exec (.l32s n rd rs1 imm) s = .next (s.raises n 0x05 a) ∧
      exec (.s32 n rd rs1 imm cl) s = .next (s.raises n 0x05 a)) ∧
    (a < 2 ^ 21 → k.owner ≠ 1 ∨ k.powered = false → exec (.l8z n rd rs1 imm) s = .next (s.raises n 0x06 a) ∧
      exec (.s8 n rd rs1 imm cl) s = .next (s.raises n 0x06 a)) ∧
    (2 ^ 48 ≤ a → exec (.l8z n rd rs1 imm) s = .next (s.raises n 0x07 a) ∧
      exec (.s8 n rd rs1 imm cl) s = .next (s.raises n 0x07 a)) ∧
    (2 ^ 21 ≤ a → a < 2 ^ 48 → s.body.squadAt n = none → exec (.l8z n rd rs1 imm) s = .next (s.raises n 0x07 a)) ∧
    (a < 2 ^ 21 → k.owner = 1 → k.waking = true → ∃ m, exec (.l8z n rd rs1 imm) s = .next (s.onCore n fun c => { c with mstall := some m }) ∧
      m.addr = va ∧ m.paged = false ∧ m.op.store = false ∧ m.op.size = 1 ∧ m.op.rd = rd ∧ m.word.toNat = wordI 0x0B rd rs1 imm) ∧
    (∀ q, 2 ^ 21 ≤ a → a < 2 ^ 48 → s.body.squadAt n = some q → xlate s.body q a false = .refused →
      exec (.l8z n rd rs1 imm) s = .next (s.raises n 0x07 a)) ∧
    (∀ q pa b v, 2 ^ 21 ≤ a → a < 2 ^ 48 → s.body.squadAt n = some q → xlate s.body q a false = .phys pa →
      s.body.retired = false → physRead s.env (.tile n) pa 1 s.body = (.ok v, b) →
      exec (.l8z n rd rs1 imm) s = .next ((s.withBody b).writesX n rd (BitVec.ofNat 64 (ofBytes v)))) ∧
    (∀ q pa b, 2 ^ 21 ≤ a → a < 2 ^ 48 → s.body.squadAt n = some q → xlate s.body q a true = .phys pa →
      s.body.retired = false →
      physWrite { s.env with clash := cl } (.tile n) pa (leBytes ((s.core n).getX rd).toNat 1) s.body = (.ok [], b) →
      exec (.s8 n rd rs1 imm cl) s = .next ((s.withBody b).retires n))

/-- R476, R477: the store of a core to the yield word of a call-up that counts its tile is done, and the core, marked as
yielded, stops at the boundary after it. -/
def Obligations.YieldStoreStopsCore : Prop :=
  ∀ (s : State) (n tile q : Nat) (v : Word64) (cl : List Nat), s.coreRuns n = true → s.body.tileOf n = some tile →
    s.body.callupOf tile = some q → s.body.yieldWord q < 2 ^ 21 →
    (s.bankAt n (s.body.yieldWord q)).owner = 1 → (s.bankAt n (s.body.yieldWord q)).isOn = true →
    exec (.yieldStore n v cl) s = .next ((s.storesSram cl n (s.body.yieldWord q) (leBytes v.toNat 8)).onSite n fun t =>
      { t with yielded := true, core := ({ t.core with stopReq := true }).retire })

/-- R175: a branch, at a place where one may stand. The slot instruction at PC + 4 comes next, and the branch waits in the
delay slot with its target (own address + 4 × OFF, or rs1) and whether it is taken; CALL links x31 and JMPR its rd to the
branch address + 8. A taken branch to no word-aligned address below 2^21 raises FETCH with the target in EXC_ADDR. Choices
of the model in it: log entries 15, 16. -/
def Obligations.BranchResults : Prop :=
  ∀ (s : State) (n : Nat), s.coreRunsAlone n = true →
    let c := s.core n
    let go := fun (taken : Bool) (t : Int) (link : Option RegNo) =>
      if taken = true ∧ (t < 0 ∨ 2 ^ 21 ≤ t ∨ t % 4 ≠ 0) then s.raises n 0x01 (uBits 64 t)
      else s.onCore n fun c =>
        let l := match link with | some r => c.setX r (BitVec.ofNat 64 (c.pc.toNat + 8)) | none => c
        { l.shadowStep with
          pc := c.pc + 4
          dslot := some { branch := c.pc, target := BitVec.ofInt 21 t, taken := taken,
                          link := link.map fun r => (r, c.getX r), shOld := c.shOld, shLeft := c.shLeft } }
    (∀ rs1 rs2 (off : BitVec 16),
      let a := c.getX rs1
      let b := c.getX rs2
      let t := c.pc.toNat + 4 * off.toInt
      exec (.breq n rs1 rs2 off) s = .next (go (decide (a = b)) t none) ∧
      exec (.brne n rs1 rs2 off) s = .next (go (decide (a ≠ b)) t none) ∧
      exec (.brlt n rs1 rs2 off) s = .next (go (decide (a.toInt < b.toInt)) t none) ∧
      exec (.brge n rs1 rs2 off) s = .next (go (decide (b.toInt ≤ a.toInt)) t none) ∧
      exec (.brltu n rs1 rs2 off) s = .next (go (decide (a.toNat < b.toNat)) t none) ∧
      exec (.brgeu n rs1 rs2 off) s = .next (go (decide (b.toNat ≤ a.toNat)) t none)) ∧
    (∀ off : BitVec 26,
      exec (.jmp n off) s = .next (go true (c.pc.toNat + 4 * off.toInt) none) ∧
      exec (.call n off) s = .next (go true (c.pc.toNat + 4 * off.toInt) (some 31))) ∧
    (∀ rd rs1 : RegNo,
      exec (.jmpr n rd rs1 0 0) s = .next (go true ((c.getX rs1).toNat : Int) (if rd = 0 then none else some rd)))

/-- R177, R179: LOOP, at a place where one may stand, with no reserved bit, END not zero and its level free: the level
takes the count of rs1[31:0], the start PC + 4 and the end PC + 4 × END, and the core goes on at the start, or past the
end for a count of 0. Level 1 beyond the end of an active level 0 raises LOOP_FORM. Choices of the model in it: log entry
16. -/
def Obligations.LoopResults : Prop :=
  ∀ (s : State) (n : Nat) (rs : RegNo) (fin : BitVec 16), s.coreRunsAlone n = true → fin ≠ 0 →
    let c := s.core n
    let r : LoopReg := { lc := (c.getX rs).truncate 32, ls := c.pc + 4, le := BitVec.ofNat 21 (c.pc.toNat + 4 * fin.toNat) }
    let next := if r.lc = 0 then r.le + 4 else c.pc + 4
    (c.loops.l0.lc = 0 → c.loops.l1.lc = 0 → exec (.loop n rs 0 false fin) s =
      .next (s.onCore n fun c => ({ (c.setLoops { c.loops with l0 := r }).shadowStep with pc := next }).boundary)) ∧
    (c.loops.l1.lc = 0 → c.loops.l0.lc = 0 ∨ c.pc.toNat + 4 * fin.toNat ≤ c.loops.l0.le.toNat →
      exec (.loop n rs 0 true fin) s =
        .next (s.onCore n fun c => ({ (c.setLoops { c.loops with l1 := r }).shadowStep with pc := next }).boundary)) ∧
    (c.loops.l1.lc = 0 → c.loops.l0.lc ≠ 0 → c.loops.l0.le.toNat < c.pc.toNat + 4 * fin.toNat →
      exec (.loop n rs 0 true fin) s = .next (s.raises n 0x04 (0x21 * 2 ^ 26 + rs.toNat * 2 ^ 21 + 2 ^ 16 + fin.toNat)))

/-- R189 to R191, R193, R296: waits and fences, outside a delay slot with no reserved bit set. At JOB a pending EPEND bit
raises ENGINE_ERR in all but WAITK; where the condition holds the instruction completes (WAITK reporting a late kickoff,
R312); else the core waits with it, and goes on once the condition holds. FENCE.M completes at once: the core's own
accesses complete as they execute. Choices of the model in it: log entry 9. -/
def Obligations.WaitsAndFences : Prop :=
  (∀ (s : State) (n : Nat) (cc : BitVec 4) (rs1 : RegNo), s.coreRunsNoSlot n = true →
     let c := s.core n
     let t : BitVec 32 := (c.getX rs1).truncate 32
     let go := fun (w : Wait) => if waitMet s.env s.body n w then (s.withBody (waitLate s.env n w s.body)).retires n
       else s.onCore n fun c => { c with wait := some w }
     let guard := fun (w : Wait) => if c.priv = false ∧ c.epend ≠ 0 then s.raises n 0x0A c.epend.toNat else go w
     exec (.waitc n cc false rs1 0) s = .next (guard (.waitc cc t)) ∧
     exec (.waitk n 0 rs1 0) s = .next (go (.waitk t)) ∧
     exec (.fenceM n 0) s = .next (guard .fenceM) ∧ waitMet s.env s.body n .fenceM = true ∧
     exec (.fenceE n 0) s = .next (guard .fenceE) ∧
     exec (.pfence n 0) s = .next (guard (.pfence (s.body.csr oPgEpoch % 2 ^ 32))) ∧
     exec (.fenceA n 0) s = .next (guard .fenceA) ∧
     (waitMet s.env s.body n (.waitc cc t) = true ↔ 0 ≤ ((c.cc.get 0 cc.toNat) - t).toInt) ∧
     (waitMet s.env s.body n (.waitk t) = true ↔ (t - s.time.time.truncate 32).toInt ≤ 0)) ∧
  (∀ (s : State) (n : Nat) (cc : BitVec 4) (t : BitVec 32),
     let done := fun (w : Wait) =>
       if waitMet s.env s.body n w then
         (s.withBody (waitLate s.env n w (s.onCore n fun c => { c with wait := none }).body)).retires n
       else s
     (s.waitsFor n (.waitc cc t) = true → exec (.waitcSatisfied n) s = .next (done (.waitc cc t))) ∧
     (s.waitsFor n (.waitk t) = true → exec (.waitkDue n) s = .next (done (.waitk t))) ∧
     (s.waitsFor n .fenceE = true → exec (.fenceComplete n) s = .next (done .fenceE)) ∧
     (s.waitsFor n .fenceA = true → exec (.fenceComplete n) s = .next (done .fenceA)) ∧
     (s.waitsFor n (.pfence t.toNat) = true → exec (.fenceComplete n) s = .next (done (.pfence t.toNat))))

/-- R184, R193, R204 to R206: the special registers. SPRD gives the register; SPWR writes a value, SPSET sets and SPCLR
clears its bits, EPEND and IPEND by their own rules. An unlisted number and a value with a bit outside the listed width
are ILLEGAL; from 0x100 up, and for the registers that JOB only reads, JOB raises PRIV. A write of FMODE opens a shadow
over the next two instructions, in which the old value is used and read; EPC, EVBASE, SCRATCH, the completion counters and
the loop registers of both banks are read back as written. Choices of the model in it: log entries 14, 17. -/
def Obligations.SpecialRegisters : Prop :=
  (∀ (s : State) (n : Nat) (rd rs1 : RegNo) (sr : BitVec 12) (m : Nat), s.coreRuns n = true → sprMask sr.toNat = some m →
     let c := s.core n
     let v := (c.getX rs1).toNat
     let write := fun form => s.onCore n fun c => (sprPut c sr.toNat (sprNew form sr.toNat (sprGet s.env c sr.toNat) v)).retire
     (c.priv = true ∨ sr.toNat < 0x100 →
       exec (.sprd n rd 0 sr) s = .next (s.writesX n rd (BitVec.ofNat 64 (sprGet s.env c sr.toNat)))) ∧
     (c.priv = false → 0x100 ≤ sr.toNat → exec (.sprd n rd 0 sr) s = .next (s.raises n 0x03 (wordSpr rd 0 0 sr))) ∧
     (v &&& m = v → sr ≠ 0 → c.priv = true ∨ (sr.toNat < 0x100 ∧ sprReadOnlyAtJob sr.toNat = false) →
       exec (.spwr n 0 rs1 sr) s = .next (write .put) ∧ exec (.spset n 0 rs1 sr) s = .next (write .set) ∧
       exec (.spclr n 0 rs1 sr) s = .next (write .clr)) ∧
     (v &&& m = v → sr = 0 → c.shLeft = 0 →
       (v % 16 ≤ 8 → exec (.spwr n 0 rs1 sr) s = .next (write .put)) ∧
       (sprNew .set 0 c.fmode.toNat v % 16 ≤ 8 → exec (.spset n 0 rs1 sr) s = .next (write .set)) ∧
       (sprNew .clr 0 c.fmode.toNat v % 16 ≤ 8 → exec (.spclr n 0 rs1 sr) s = .next (write .clr))) ∧
     (v &&& m = v → sr = 0 → c.shLeft ≠ 0 ∨ 8 < v % 16 →
       exec (.spwr n 0 rs1 sr) s = .next (s.raises n 0x02 (wordSpr 0 rs1 1 sr))) ∧
     (v &&& m = v → sr ≠ 0 → c.priv = false → 0x100 ≤ sr.toNat ∨ sprReadOnlyAtJob sr.toNat = true →
       exec (.spwr n 0 rs1 sr) s = .next (s.raises n 0x03 (wordSpr 0 rs1 1 sr)) ∧
       exec (.spset n 0 rs1 sr) s = .next (s.raises n 0x03 (wordSpr 0 rs1 2 sr)) ∧
       exec (.spclr n 0 rs1 sr) s = .next (s.raises n 0x03 (wordSpr 0 rs1 3 sr))) ∧
     (v &&& m ≠ v → exec (.spwr n 0 rs1 sr) s = .next (s.raises n 0x02 (wordSpr 0 rs1 1 sr)) ∧
       exec (.spset n 0 rs1 sr) s = .next (s.raises n 0x02 (wordSpr 0 rs1 2 sr)) ∧
       exec (.spclr n 0 rs1 sr) s = .next (s.raises n 0x02 (wordSpr 0 rs1 3 sr)))) ∧
  (∀ (s : State) (n : Nat) (rd rs1 : RegNo) (sr : BitVec 12), s.coreRuns n = true →
     (rs1 ≠ 0 ∨ sprMask sr.toNat = none → exec (.sprd n rd rs1 sr) s = .next (s.raises n 0x02 (wordSpr rd rs1 0 sr))) ∧
     (rd ≠ 0 ∨ sprMask sr.toNat = none → exec (.spwr n rd rs1 sr) s = .next (s.raises n 0x02 (wordSpr rd rs1 1 sr)))) ∧
  (∀ (e : Env) (c : CoreSt) (v i : Nat), i < 16 →
     (c.shLeft = 0 → let d := (sprPut c 0x000 v).shadowStep
       d.fmodeUsed = c.fmode ∧ d.shadowStep.fmodeUsed = c.fmode ∧ d.shadowStep.shadowStep.fmodeUsed = BitVec.ofNat 6 v) ∧
     sprGet e (sprPut c 0x001 v) 0x001 = v % 2 ^ 6 ∧ sprGet e (sprPut c 0x002 v) 0x002 = v % 2 ^ 48 ∧
     sprGet e (sprPut c 0x003 v) 0x003 = v % 2 ^ 40 ∧ sprGet e c 0x004 = e.time.time.toNat ∧
     sprGet e (sprPut c (0x010 + i) v) (0x010 + i) = v % 2 ^ 32 ∧
     sprGet e (sprPut c 0x100 v) 0x100 = v % 2 ^ 21 ∧ sprGet e (sprPut c 0x102 v) 0x102 = v % 2 ^ 64 ∧
     sprGet e (sprPut c 0x104 v) 0x104 = v % 2 ^ 21 ∧ sprGet e (sprPut c 0x105 v) 0x105 = v % 2 ^ 64 ∧
     sprGet e (sprPut c 0x108 v) 0x108 = v % 2 ^ 32 ∧ sprGet e (sprPut c 0x10D v) 0x10D = v % 2 ^ 21 ∧
     (∀ old, sprNew .set 0x107 old v = old) ∧ (∀ old, sprNew .put 0x107 old v = sprNew .clr 0x107 old v) ∧
     (∀ old, sprNew .put 0x020 old v = old ||| v) ∧ (∀ old, sprNew .set 0x020 old v = old ||| v))

/-- R192, R195, R196, R199, R201, R202: VSUM reads a summary slot (all ones while it is not valid) into x or f; TRAP takes
its exception with the code in EXC_ADDR; ERET goes back to EPC with the saved privilege and interrupt enable, at JOB it
raises PRIV; an enabled pending interrupt is taken at a boundary, HOST before PREEMPT before MP. Choices of the model in
it: log entries 14, 15. -/
def Obligations.TrapsReturnsAndInterrupts : Prop :=
  ∀ (s : State) (n : Nat),
    (∀ rd f slot, s.coreRuns n = true →
      let u := (s.body.site n).vx.sums.get { value := 0, kind := 0, valid := false } (BitVec.toNat slot)
      let v : Word64 := if u.valid then u.value else -1
      exec (.vsum n rd f slot 0) s = .next (if f then s.writesF n rd v else s.writesX n rd v)) ∧
    (∀ code, s.coreRunsAlone n = true → exec (.trap n code 0) s = .next (s.raises n 0x09 (BitVec.toNat code))) ∧
    (s.coreRunsAlone n = true → (s.core n).priv = true → exec (.eret n 0) s = .next (s.onCore n CoreSt.eret)) ∧
    (s.coreRunsAlone n = true → (s.core n).priv = false → exec (.eret n 0) s = .next (s.raises n 0x03 (0x27 * 2 ^ 26 + 1))) ∧
    (let c := s.core n
     c.eret.pc = c.epc ∧ c.eret.priv = c.ppriv ∧ c.eret.ie = c.pie) ∧
    (n < 408 → (s.core n).stopped = false → (s.core n).dslot = none → (s.core n).ie = true →
      let p := (s.core n).ipend &&& (s.core n).ien
      (p.getLsbD 0 = true → exec (.interruptEntry n) s = .next (s.onCore n fun c => c.takeInterrupt 0x10 0)) ∧
      (p.getLsbD 0 = false → p.getLsbD 1 = true →
        exec (.interruptEntry n) s = .next (s.onCore n fun c => c.takeInterrupt 0x11 c.preemptSquad)) ∧
      (p = 4 → exec (.interruptEntry n) s = .next (s.onCore n fun c => c.takeInterrupt 0x12 0)))

/-- R196, R203: exception entry. EPC takes the restart address: in a delay slot the branch, whose link is undone; the
privilege and the interrupt enable are saved, TILE_SUPER runs with IE = 0 at EVBASE, and EXC_INFO and EXC_ADDR say what
happened. With TILE_SUPER at IE = 0 the core stops with DOUBLE instead: the restart address is its PC, DDS and LASTCAUSE say
what happened, EPC, EXC_INFO and EXC_ADDR stay, and a tile fault (kind 6) that names the site is recorded. -/
def Obligations.ExceptionEntry : Prop :=
  ∀ (s : State) (n cause addr : Nat), cause < 256 →
    let c := s.core n
    let t := (s.raises n cause addr).core n
    (c.priv = false ∨ c.ie = true →
      t.epc = (match c.dslot with | some d => d.branch | none => c.pc) ∧ t.pc = c.evbase ∧ t.priv = true ∧ t.ie = false ∧
      t.ppriv = c.priv ∧ t.pie = c.ie ∧ t.excAddr = BitVec.ofNat 64 addr ∧ t.excInfo.toNat % 256 = cause ∧
      t.fmodeUsed = t.fmode ∧ t.dslot = none ∧ t.wait = none ∧ t.lastCause = BitVec.ofNat 8 cause ∧
      (s.raises n cause addr).body.mem = s.body.mem) ∧
    (c.priv = true → c.ie = false →
      t.stopped = true ∧ t.double = true ∧ t.epc = c.epc ∧ t.pc = (match c.dslot with | some d => d.branch | none => c.pc) ∧
      t.dds = c.dslot.isSome ∧ t.lastCause = BitVec.ofNat 8 cause ∧ t.excInfo = c.excInfo ∧ t.excAddr = c.excAddr ∧
      ∃ r : ErrRec, r.kind = 6 ∧ r.site = n ∧
        s.raises n cause addr = s.withBody (recordErr s.env r (s.onCore n fun _ => t).body))

-- Banks, and the registers that drive a core from outside.

/-- R217 to R220: the BANK instructions. The result goes to rd: 0 or a bank number, −1 where no bank is free, −2 for a bad
operand, else −3 at JOB for a locked bank and for BLOCK. A failed operation changes nothing but rd. A lock changes
nothing in what its owner and guest may access. -/
def Obligations.BankInstructions : Prop :=
  ∀ (s : State) (n : Nat) (rd rs1 rs2 : RegNo), s.coreRuns n = true →
    let x := ((s.core n).getX rs1).toNat
    let y := ((s.core n).getX rs2).toNat
    let job := !(s.core n).priv
    let k := (s.body.site n).bank x
    let fails := fun r : Int => s.writesX n rd (BitVec.ofInt 64 r)
    let sets := fun (r : Int) (i : Nat) (k : Bank) => (s.onSite n fun t => t.setBank i k).writesX n rd (BitVec.ofInt 64 r)
    (1 ≤ x → x ≤ 6 → y = 0 → ballocPick (s.body.site n) = none → exec (.balloc n rd rs1 rs2) s = .next (fails (-1))) ∧
    (∀ i, 1 ≤ x → x ≤ 6 → y = 0 → ballocPick (s.body.site n) = some i → exec (.balloc n rd rs1 rs2) s =
      .next (let k := { (s.body.site n).bank i with owner := x, guest := 0 }
             sets i i ((k.request 2).getD k))) ∧
    (x = 0 ∨ 6 < x ∨ y ≠ 0 → exec (.balloc n rd rs1 rs2) s = .next (fails (-2))) ∧
    (31 < x ∨ y ≠ 0 → exec (.bfree n rd rs1 rs2) s = .next (fails (-2))) ∧
    (x ≤ 31 → y = 0 → job = true → k.lock = true → exec (.bfree n rd rs1 rs2) s = .next (fails (-3))) ∧
    (x ≤ 31 → y = 0 → job = false ∨ k.lock = false →
      exec (.bfree n rd rs1 rs2) s = .next (sets 0 x { k with owner := 0, guest := 0 })) ∧
    (31 < x ∨ y = 0 ∨ 6 < y → exec (.bhand n rd rs1 rs2) s = .next (fails (-2))) ∧
    (x ≤ 31 → 1 ≤ y → y ≤ 6 → job = true → k.lock = true → exec (.bhand n rd rs1 rs2) s = .next (fails (-3))) ∧
    (x ≤ 31 → 1 ≤ y → y ≤ 6 → job = false ∨ k.lock = false → exec (.bhand n rd rs1 rs2) s =
      .next (sets 0 x { k with owner := y, guest := if k.guest = y then 0 else k.guest })) ∧
    (x ≤ 31 → y = 0 ∨ y = 5 ∨ y = 6 → y = 0 ∨ k.owner ≠ y → job = false ∨ k.lock = false →
      exec (.bguest n rd rs1 rs2) s = .next (sets 0 x { k with guest := y })) ∧
    (31 < x ∨ (y ≠ 0 ∧ (k.owner = y ∨ (y ≠ 5 ∧ y ≠ 6))) → exec (.bguest n rd rs1 rs2) s = .next (fails (-2))) ∧
    (x ≤ 31 → y = 0 ∨ y = 5 ∨ y = 6 → y = 0 ∨ k.owner ≠ y → job = true → k.lock = true →
      exec (.bguest n rd rs1 rs2) s = .next (fails (-3))) ∧
    (x ≤ 31 → y ≤ 1 → job = true → exec (.block n rd rs1 rs2) s = .next (fails (-3))) ∧
    (x ≤ 31 → y ≤ 1 → job = false → exec (.block n rd rs1 rs2) s = .next (sets 0 x { k with lock := decide (y = 1) })) ∧
    (31 < x ∨ 1 < y → exec (.block n rd rs1 rs2) s = .next (fails (-2))) ∧
    (31 < x ∨ 2 < y ∨ k.request y = none → exec (.bpwr n rd rs1 rs2) s = .next (fails (-2))) ∧
    (x ≤ 31 → y ≤ 2 → k.request y ≠ none → job = true → k.lock = true → exec (.bpwr n rd rs1 rs2) s = .next (fails (-3))) ∧
    (∀ (t : Site) (i unit m : Nat) (l : Bool), (t.setBank i { t.bank i with lock := l }).serves unit m = t.serves unit m) ∧
    (∀ k', x ≤ 31 → y ≤ 2 → k.request y = some k' → job = false ∨ k.lock = false → k.waking = false → k'.pwr ≠ .off →
      exec (.bpwr n rd rs1 rs2) s = .next (sets 0 x k')) ∧
    (x ≤ 31 → y ≤ 2 → k.request y ≠ none → job = false ∨ k.lock = false → exec (.bpwr n rd rs1 rs2) s =
      .next ((s.withBody (applyPower s.env n x y s.body)).writesX n rd 0))

/-- R218: BALLOC's bank is free and unlocked, no lower free unlocked bank is better placed: it is the lowest that is ON, or,
where none is ON, the lowest in any state, and BALLOC then starts that bank's transition to ON; it fails only where no bank is
free and unlocked. -/
def Obligations.BallocPicksLowest : Prop :=
  ∀ t : Site,
    let free := fun i => i < 32 ∧ (t.bank i).owner = 0 ∧ (t.bank i).lock = false
    (∀ i, ballocPick t = some i → free i ∧
      ((t.bank i).isOn = true ∧ (∀ j, free j → (t.bank j).isOn = true → i ≤ j) ∨
       (∀ j, free j → (t.bank j).isOn = false ∧ i ≤ j))) ∧
    (ballocPick t = none ↔ ∀ i, ¬ free i) ∧
    (∀ (s : State) (n : Nat) (rd rs1 rs2 : RegNo) (i : Nat), s.coreRuns n = true → s.body.site n = t →
      1 ≤ ((s.core n).getX rs1).toNat → ((s.core n).getX rs1).toNat ≤ 6 → (s.core n).getX rs2 = 0 → ballocPick t = some i →
      ∃ u, exec (.balloc n rd rs1 rs2) s = .next u ∧ ((u.body.site n).bank i).target = 2 ∧ ((u.body.site n).bank i).pwr =
        (match (t.bank i).pwr with | .on => .on | .retain => .wakingRetain | .off => .wakingOff | p => p))

/-- R225: a power request on a bank. ON, RETAIN and OFF answer each request as the table says; OFF refuses RETAIN; a bank
that wakes may be told to stop waking; a bank that goes OFF loses its 64 KiB and nothing else of memory, and one that
does not keeps them. -/
def Obligations.BankPowerStates : Prop :=
  (∀ k : Bank, k.pwr = .on → k.request 1 = some { k with pwr := .retain, target := 1 } ∧
    k.request 0 = some { k with pwr := .off, target := 0 }) ∧
  (∀ k : Bank, k.pwr = .retain → k.request 2 = some { k with pwr := .wakingRetain, target := 2 } ∧
    k.request 0 = some { k with pwr := .off, target := 0 }) ∧
  (∀ k : Bank, k.pwr = .off → k.request 2 = some { k with pwr := .wakingOff, target := 2 } ∧ k.request 1 = none) ∧
  (∀ (b : Body) (n i a : Nat) (k : Bank), b.mem.wf = true →
    (storeBank n i k b).mem.get a =
      if k.pwr = .off ∧ siteBase n + i * 0x10000 ≤ a ∧ a < siteBase n + i * 0x10000 + 0x10000 then 0 else b.mem.get a) ∧
  (∀ (s : State) (n i : Nat), n < 408 → i < 32 → ((s.body.site n).bank i).waking = true →
    exec (.bankWakeDone n i) s = .next (s.withBody (rxRelease s.env (wakeWaiters s.env n
      (s.body.modSite n fun t => t.setBank i { t.bank i with pwr := .on })))))

/-- R221, R230, R232: the TL_BANK registers written by an agent that may write them, of a site that runs a tile. An
owner write gives one bank its owner, guest and lock; a power write carries out R225 for the banks whose field changes,
lowest first; a write with a bad field, or by another agent, changes no bank and records a CSR access error. -/
def Obligations.BankRegisterWrites : Prop :=
  ∀ (s : State) (ag : Agent) (n : Nat) (v : Word64), n < 408 →
    let o := bitsOf v.toNat 8 3
    let g := bitsOf v.toNat 12 3
    let i := bitsOf v.toNat 0 5
    let refused := fun r => s.withBody (csrError s.env ag (oTl n r) s.body)
    (mayWrite ag (oTl n 0x200) = true → s.body.tileOf n ≠ none → o ≠ 7 → g = 0 ∨ g = 5 ∨ g = 6 → g = 0 ∨ g ≠ o →
      exec (.tlBankOwnWrite ag n v) s = .next (s.onSite n fun t =>
        t.setBank i { t.bank i with owner := o, guest := g, lock := bitOf v.toNat 16 })) ∧
    (mayWrite ag (oTl n 0x200) = false ∨ o = 7 ∨ (g ≠ 0 ∧ g = o) →
      exec (.tlBankOwnWrite ag n v) s = .next (refused 0x200)) ∧
    (mayWrite ag (oTl n 0x228) = true → s.body.tileOf n ≠ none → (∀ j, j < 32 → bitsOf v.toNat (2 * j) 2 ≠ 3) →
      (∀ j, j < 32 → ((s.body.site n).bank j).request (bitsOf v.toNat (2 * j) 2) ≠ none) →
      exec (.tlBankPwrWrite ag n v) s = .next (s.withBody
        (overList (powerChanges (s.body.site n) v.toNat) (fun j b => applyPower s.env n j (bitsOf v.toNat (2 * j) 2) b) s.body))) ∧
    (mayWrite ag (oTl n 0x228) = false → exec (.tlBankPwrWrite ag n v) s = .next (refused 0x228))

/-- R208, R210: START lets a stopped core of a running tile go on at TL_CORE_PC, after reset or a double fault in
TILE_SUPER; STOP stops it at the next boundary, at once outside a delay slot; IRQH and IRQM set their IPEND bits; a write
of TL_CORE_PC moves a stopped core and is refused while it runs. Choices of the model in it: log entries 9, 15, 57. -/
def Obligations.CoreControl : Prop :=
  ∀ (s : State) (ag : Agent) (n : Nat) (v : Word64), n < 408 → mayWrite ag (oTl n 0x100) = true →
    mayWrite ag (oTl n 0x110) = true →
    let c := s.core n
    (c.stopped = true → deadlineYielded s.body n = true ∨ s.body.tileOf n = none → exec (.coreStart ag n) s = .next s) ∧
    (c.stopped = true → deadlineYielded s.body n = false → s.body.tileOf n ≠ none →
      exec (.coreStart ag n) s = .next (s.onCore n fun c => { c with
        stopped := false, stopReq := false, fresh := false, double := false,
        priv := c.priv || c.fresh || c.double })) ∧
    (c.stopped = false → exec (.coreStart ag n) s = .next s) ∧
    (c.stopped = false → c.dslot = none → exec (.coreStop ag n) s = .next (s.onCore n fun c =>
      { c with stopped := true, wait := none, issue := none, mstall := none })) ∧
    (c.stopped = false → c.dslot ≠ none → exec (.coreStop ag n) s = .next (s.onCore n fun c => { c with stopReq := true })) ∧
    exec (.irqh ag n) s = .next (s.onCore n fun c => { c with ipend := c.ipend ||| 1 }) ∧
    exec (.irqm .mp n) s = .next (s.onCore n fun c => { c with ipend := c.ipend ||| 4 }) ∧
    (ag ≠ .mp → exec (.irqm ag n) s = .next (s.withBody (csrError s.env ag (oTl n 0x100) s.body))) ∧
    (c.stopped = true → exec (.tlCorePcWrite ag n v) s = .next (s.onCore n fun c =>
      { c with pc := BitVec.ofNat 21 (v.toNat % 2 ^ 21 / 4 * 4), shLeft := 0, dslot := none })) ∧
    (c.stopped = false → exec (.tlCorePcWrite ag n v) s = .next (s.withBody (csrError s.env ag (oTl n 0x110) s.body)))

/-- R187, R191: an engine instruction captures its operand registers, the rounding selection, the privilege and the key, and
goes to the back of its engine's queue (32, 16, 8 and 32 deep); on a full queue the core stalls with it. A word that
encodes nothing raises ILLEGAL. -/
def Obligations.EngineIssue : Prop :=
  ∀ (s : State) (n : Nat) (w : Word32), s.coreRuns n = true →
    let m := bitsOf w.toNat 26 6
    let t := s.body.site n
    let q := captureEntry s.body n w
    (m = 0x29 → t.mx.eng.q.length < 32 →
      exec (.engineIssue n w) s = .next ((s.onSite n fun t => { t with mx.eng.q := t.mx.eng.q ++ [q] }).retires n)) ∧
    (m = 0x2A → t.vx.eng.q.length < 16 →
      exec (.engineIssue n w) s = .next ((s.onSite n fun t => { t with vx.eng.q := t.vx.eng.q ++ [q] }).retires n)) ∧
    (m = 0x2B → t.sv.q.length < 8 →
      exec (.engineIssue n w) s = .next ((s.onSite n fun t => { t with sv.q := t.sv.q ++ [.issued q] }).retires n)) ∧
    (m = 0x2C → t.cp.eng.q.length < 32 →
      exec (.engineIssue n w) s = .next ((s.onSite n fun t => { t with cp.eng.q := t.cp.eng.q ++ [q] }).retires n)) ∧
    ((m = 0x29 ∧ 32 ≤ t.mx.eng.q.length) ∨ (m = 0x2A ∧ 16 ≤ t.vx.eng.q.length) ∨ (m = 0x2B ∧ 8 ≤ t.sv.q.length) ∨
      (m = 0x2C ∧ 32 ≤ t.cp.eng.q.length) →
      exec (.engineIssue n w) s = .next (s.onCore n fun c => { c with issue := some w })) ∧
    (m < 0x29 → reservedWord w.toNat = false → exec (.engineIssue n w) s = .next s) ∧
    (0x2D ≤ m ∨ m = 0x15 ∨ m = 0x16 ∨ m = 0x17 → exec (.engineIssue n w) s = .next (s.raises n 0x02 w.toNat)) ∧
    q.word = w ∧ q.priv = (s.core n).priv ∧ q.key = BitVec.ofNat 64 (s.body.csr (oTr 0)) ∧
    (let reg := fun k => (s.core n).getX (BitVec.ofNat 5 (bitsOf w.toNat k 5))
     (m = 0x29 ∨ m = 0x2A → q.a = reg 14 ∧ q.b = reg 9) ∧ (m = 0x2B ∨ m = 0x2C → q.a = reg 17 ∧ q.b = reg 12))

-- The matrix engine.

/-- R95, R100, R102: the instructions that manage groups, where the head executes. OPEN binds its class and output
descriptor, as captured at the head, and zeroes the live half; DISCARD frees its group; FOLD adds group H into G and frees
H; SPILL, with no shadow draining, writes the image at its address and frees every group. Each ends with status OK (SPILL
with COLLIDE where its write lost a collision) and touches nothing else. -/
def Obligations.MatrixGroupInstructions : Prop :=
  ∀ (s : State) (n : Nat) (q : QEntry),
    let x := (s.body.site n).mx
    (s.mxRuns n q 0 = true → ∃ t, exec (.mxOpen n) s = .next t ∧ s.sameButEngines t n ∧
      let y := (t.body.site n).mx
      y.group q.mxG = some { cls := q.mxClass, dual := q.mxDual, desc := (mxPeek s.body n q).getD 0 0 } ∧
      (∀ g, g ≠ q.mxG → y.group g = x.group g) ∧ y.eng = x.eng.ends mxOk ∧
      y.acc = zeroSlots x.acc (slotsOf x.accmode q.mxClass q.mxDual q.mxG (x.phaseOf q.mxG))) ∧
    (s.mxRuns n q 5 = true → ∃ t, exec (.mxDiscard n) s = .next t ∧ s.sameButEngines t n ∧
      let y := (t.body.site n).mx
      y.group q.mxG = none ∧ (∀ g, g ≠ q.mxG → y.group g = x.group g) ∧ y.acc = x.acc ∧ y.eng = x.eng.ends mxOk) ∧
    (∀ g h, s.mxRuns n q 3 = true → x.group q.mxG = some g → x.group q.mxH = some h →
      ∃ t, exec (.mxFold n) s = .next t ∧ s.sameButEngines t n ∧
      let y := (t.body.site n).mx
      let r := foldStore g (x.live q.mxG g) (x.live q.mxH h) (x.acc, 0)
      y.acc = r.1 ∧ y.eng = { x.eng.ends mxOk with flags := x.eng.flags ||| r.2 } ∧
      y.group q.mxH = none ∧ (∀ i, i ≠ q.mxH → y.group i = x.group i)) ∧
    (∀ cl, s.mxRuns n q 6 = true → ∃ t, exec (.mxSpill n cl) s = .next t ∧
      let w := unitWrite { s.env with clash := cl } 2 n (q.a.toNat, mxImageBytes)
        (s.body.mem.paste (siteBase n + q.a.toNat) mxImageBytes (mxImage x)) s.body
      t.body.mem = w.2.mem ∧
      (t.body.site n).mx = { x with groups := [], eng := x.eng.ends (if w.1 then mxCollide else mxOk) })

/-- R82 to R90, R97, R99, R101, R102, R114: the instructions that move data. MMA accumulates the product of its operands
into the open group and counts its passes; LOADACC loads a tensor into it; CLOSE in GROUPS mode drains the live half to
the output and frees the group, in SHADOW mode it starts a shadow drain, swaps the halves, the new live half being clear, and
leaves the queue, or waits for the group's shadow while MX_STALL_COUNT grows; FILL restores a valid image, and an invalid
one ends with FILL_BAD and changes no group. Choices of the model in it: log entries 19, 62. -/
def Obligations.MatrixDataInstructions : Prop :=
  ∀ (s : State) (n : Nat) (q : QEntry),
    let x := (s.body.site n).mx
    let a := TDesc.ofNat ((mxPeek s.body n q).getD 0 0)
    let b := TDesc.ofNat ((mxPeek s.body n q).getD 1 0)
    (∀ k c kc, s.mxRuns n q 1 = true → x.group q.mxG = some k → mmaKind a.fmt b.fmt = some (c, kc) →
      ∃ t, exec (.mxMma n) s = .next t ∧ s.sameButEngines t n ∧
      let r := mmaStore s.body.mem (siteBase n) a b k (x.live q.mxG k) kc q (x.acc, 0)
      (t.body.site n).mx = { x with acc := r.1, passes := x.passes + BitVec.ofNat 64 (mmaPasses a k.out kc),
                                    eng := { x.eng.ends mxOk with flags := x.eng.flags ||| r.2 } }) ∧
    (∀ k, s.mxRuns n q 4 = true → x.group q.mxG = some k → ∃ t, exec (.mxLoadacc n) s = .next t ∧ s.sameButEngines t n ∧
      let r := loadStoreAcc s.body.mem (siteBase n) a k (x.live q.mxG k) (x.acc, 0)
      (t.body.site n).mx = { x with acc := r.1, eng := { x.eng.ends mxOk with flags := x.eng.flags ||| r.2 } }) ∧
    (∀ k cl, s.mxRuns n q 2 = true → x.group q.mxG = some k → x.accmode = false → digWaits s.body (drainRuns k) = false →
      ∃ t b, exec (.mxClose n cl) s = .next t ∧ s.body.mxHead n b ∧
      let d := drainElems { s.env with clash := cl } n (x.live q.mxG k) k q (2 ^ 14) b
      t.body.mem = d.body.mem ∧ (t.body.site n).mx.group q.mxG = none ∧
      (t.body.site n).mx.eng.done = some (if d.lost then mxBank else if d.hit then mxCollide else mxOk) ∧
      (t.body.site n).mx.acc = (d.body.site n).mx.acc) ∧
    (∀ k cl, s.mxRuns n q 2 = true → x.group q.mxG = some k → x.accmode = true → (∀ d ∈ x.drains, d.g ≠ q.mxG) →
      (s.core n).issue = none → ∃ t, exec (.mxClose n cl) s = .next t ∧ s.sameButEngines t n ∧
      let y := (t.body.site n).mx
      y.drains = x.drains ++ [{ g := q.mxG, half := x.live q.mxG k, grp := k, entry := q }] ∧ y.group q.mxG = none ∧
      y.phaseOf q.mxG = !x.phaseOf q.mxG ∧ y.eng.q = x.eng.q.tail ∧
      y.acc = zeroSlots x.acc ((slotsOf true k.cls k.dual q.mxG (y.phaseOf q.mxG)).filter fun i => !y.usedSlots.contains i)) ∧
    (∀ k cl, s.mxRuns n q 2 = true → x.group q.mxG = some k → x.accmode = true → (∃ d ∈ x.drains, d.g = q.mxG) →
      ∃ t, exec (.mxClose n cl) s = .next t ∧ (t.body.site n).mx.stalls = x.stalls + Config.freeValue s.body.free ∧
      (t.body.site n).mx.drains = x.drains ∧ (t.body.site n).mx.groups = x.groups ∧ (t.body.site n).mx.eng.q = x.eng.q ∧
      (t.body.site n).mx.acc = x.acc ∧ t.body.mem = s.body.mem) ∧
    (s.mxRuns n q 7 = true →
      let img := s.body.mem.slice (siteBase n + q.a.toNat) mxImageBytes
      ∃ t, exec (.mxFill n) s = .next t ∧ s.sameButEngines t n ∧
      (imageOk img x = true → (t.body.site n).mx =
        { imageState img x with acc := img.slice 1024 0x80000, eng := (imageState img x).eng.ends mxOk }) ∧
      (imageOk img x = false → (t.body.site n).mx = { x with eng := x.eng.ends mxFillBad }))

/-- R73, R74, R94, R105, R109, R110, R113, R193: the matrix queue. A head with kickoffs waits, its descriptors captured and
KWAIT reading 1, until every one is due, then launches or ends with the status of its checks; a head that has ended
completes: its counter advances, LAST_STATUS holds its status, and a failing status halts the engine, keeps MX_ERR's first
record and sets EPEND bit 0. RESUME ends the halt, FLUSH empties the queue and frees every group, and MX_CFG changes ACCMODE
only while the engine is idle, its queue empty and every slot free. Choices of the model in it: log entries 8, 9, 66. -/
def Obligations.MatrixQueue : Prop :=
  ∀ (s : State) (ag : Agent) (n : Nat), n < 408 →
    let x := (s.body.site n).mx
    (∀ q, x.eng.head = some q → x.eng.launched = false → kickoffsOf (mxPeek s.body n q) ≠ [] →
      armedAt s.body (detOf 1 n) = false →
      let ds := mxPeek s.body n q
      let st := mxStatus (s.body.site n) ds q
      ((kickoffsOf ds).all (kickDue s.env.now) = false →
        exec (.mxKickoffLaunch n) s = .next (s.onSite n fun t => { t with mx.eng.cap := some ds }) ∧
        mxKwait s.env s.body n = true) ∧
      ((kickoffsOf ds).all (kickDue s.env.now) = true → (kickoffsOf ds).any (kickLate s.env.now) = false →
        exec (.mxKickoffLaunch n) s = .next (s.onSite n fun t => { t with mx.eng :=
          if st = mxOk then { t.mx.eng with launched := true, cap := some ds } else t.mx.eng.ends st }))) ∧
    (∀ q r st, x.eng.q = q :: r → x.eng.done = some st → (s.core n).issue = none → (s.core n).wait = none →
      ∃ t, exec (.mxComplete n) s = .next t ∧
      let y := (t.body.site n).mx.eng
      y.q = r ∧ y.done = none ∧ y.launched = false ∧ y.last = st ∧
      (∀ c, (t.core n).cc.get 0 c = (s.core n).cc.get 0 c + if c = q.mxCc then 1 else 0) ∧
      (st = mxOk ∨ st = mxFlushed → y.halted = x.eng.halted ∧ y.err = x.eng.err ∧ (t.core n).epend = (s.core n).epend) ∧
      (st ≠ mxOk → st ≠ mxFlushed → y.halted = true ∧ (t.core n).epend = (s.core n).epend ||| 1 ∧
        y.err = if bitOf x.eng.err.toNat 63 then x.eng.err
                else BitVec.ofNat 64 (2 ^ 63 + st * 2 ^ 40 + q.mxG * 2 ^ 32 + q.word.toNat))) ∧
    (∀ d g cl, x.drains.find? (fun e => e.g == g) = some d → drainWaits s.body n d.grp = false →
      armedAt s.body (detOf 2 n) = false → (s.core n).wait = none → ∃ t, exec (.mxShadowDrainEnd n g cl) s = .next t ∧
      let r := drainElems { s.env with clash := cl } n d.half d.grp d.entry (2 ^ 14) s.body
      t.body.mem = r.body.mem ∧ (∀ e ∈ (t.body.site n).mx.drains, e.g ≠ g) ∧
      (t.body.site n).mx.eng.last = if r.lost then mxBank else if r.hit then mxCollide else mxOk) ∧
    (mayWrite ag (oTl n 0x1008) = true →
      exec (.mxResume ag n) s = .next (s.onSite n fun t => { t with mx.eng.halted := false })) ∧
    (∀ cl, mayWrite ag (oTl n 0x1008) = true → x.drains = [] → (s.core n).issue = none →
      ∃ t, exec (.mxFlush ag n cl) s = .next t ∧
      let y := (t.body.site n).mx
      y.eng.q = [] ∧ y.eng.halted = false ∧ y.eng.done = none ∧ (∀ g, y.group g = none) ∧ y.acc = x.acc ∧
      (∀ c, (t.core n).cc.get 0 c =
        (s.core n).cc.get 0 c + BitVec.ofNat 32 (x.eng.q.filter fun q => q.mxCc == c).length)) ∧
    (∀ v : Word64, mayWrite ag (oTl n 0x1000) = true → x.idle false = true → x.eng.q = [] → x.allFree = true →
      exec (.mxCfgWrite ag n v) s = .next (s.onSite n fun t => { t with mx.accmode := bitOf v.toNat 0 })) ∧
    (∀ v : Word64, mayWrite ag (oTl n 0x1000) = false ∨ x.idle false = false ∨ x.eng.q ≠ [] ∨ x.allFree = false →
      exec (.mxCfgWrite ag n v) s = .next (s.withBody (csrError s.env ag (oTl n 0x1000) s.body)))

-- The vector engine.

/-- R134, R136, R139 to R155, R157: the vector instructions, where the head executes. RUN runs its program strip by strip
over its captured streams and then writes the summaries it names, and ends with OK, with COLLIDE where a write lost a
collision, or, without the summaries, with BANK_OWN at the micro-operation that lost its bank; PLOAD takes the header and the
first LEN words of a good program in its own banks into its slot, else ends with REJ_PROG or BANK_OWN; SPILL writes the state
image at its address; FILL restores a good one. Choices of the model in it: log entries 20, 62. -/
def Obligations.VectorInstructions : Prop :=
  ∀ (s : State) (n : Nat) (q : QEntry) (cl : List Nat),
    let x := (s.body.site n).vx
    let us := x.program q.vxSlot
    let c := vxCtx { s.env with clash := cl } n q (vxPeek s.body n q) s.body
    let a := siteBase n + q.a.toNat
    (s.vxRuns n q 0 = true → digWaits s.body (vxStoreRuns c us) = false → ∃ t b, exec (.vxRun n cl) s = .next t ∧
      s.body.vxHead n b ∧
      let r := runStrips c us b
      let z := finishSums c us r
      let y := (t.body.site n).vx
      (∀ u, r.lost = some u → t.body.mem = r.b.mem ∧ y.eng.done = some mxBank ∧ y.uop = u) ∧
      (r.lost = none → t.body.mem = z.b.mem ∧ y.sums = (z.b.site n).vx.sums ∧ y.v = (z.b.site n).vx.v ∧
        y.k = (z.b.site n).vx.k ∧ y.eng.flags = (z.b.site n).vx.eng.flags ||| z.flags ∧
        y.eng.done = some (if z.hit.isSome then mxCollide else mxOk))) ∧
    (s.vxRuns n q 1 = true → ∃ t, exec (.vxPload n) s = .next t ∧ s.sameButEngines t n ∧
      let y := (t.body.site n).vx
      let w := s.body.mem.num a 8
      let words := (List.range (imageLen w)).map fun u => s.body.mem.num (a + 8 + 8 * u) 8
      let owned := (s.body.site n).ownsAll 3 [(q.a.toNat + 8, 8 * imageLen w)]
      (owned = false → y = x.ends mxBank 0) ∧ (owned = true → progOk w words = false → y = x.ends vxProg 0) ∧
      (owned = true → progOk w words = true →
        y.hdr = x.hdr.set q.vxSlot (BitVec.ofNat 64 w) ∧
        (∀ u, u < hdrLen w → y.prog.get 0 (q.vxSlot * 64 + u) = BitVec.ofNat 64 (s.body.mem.num (a + 8 + 8 * u) 8)) ∧
        (∀ k, k < q.vxSlot * 64 ∨ q.vxSlot * 64 + hdrLen w ≤ k → y.prog.get 0 k = x.prog.get 0 k) ∧
        y.v = x.v ∧ y.k = x.k ∧ y.sums = x.sums ∧ y.eng = x.eng.ends mxOk)) ∧
    (s.vxRuns n q 2 = true → ∃ t, exec (.vxSpill n cl) s = .next t ∧
      let w := unitWrite { s.env with clash := cl } 3 n (q.a.toNat, vxImageBytes) (s.body.mem.paste a vxImageBytes (vxImage x)) s.body
      t.body.mem = w.2.mem ∧ (t.body.site n).vx = x.ends (if w.1 then mxCollide else mxOk) 0) ∧
    (s.vxRuns n q 3 = true → ∃ t, exec (.vxFill n) s = .next t ∧ s.sameButEngines t n ∧
      let img := s.body.mem.slice a vxImageBytes
      (t.body.site n).vx = if vxImageOk img then (vxRestore img x).ends mxOk 0 else x.ends mxFillBad 0)

/-- R133, R143, R156, R160, R161, R163, R193: the vector queue. A head whose streams carry kickoffs waits, its descriptors
captured and KWAIT reading 1, until every one is due, then launches or ends with the status of its checks; a head that has
ended completes: its counter advances, LAST_STATUS holds its status, and a failing status halts the engine, keeps VX_ERR's
first record with the micro-operation at fault and sets EPEND bit 1. RESUME ends the halt; FLUSH completes every queued
instruction with FLUSHED and empties the queue. Choices of the model in it: log entries 8, 9, 66. -/
def Obligations.VectorQueue : Prop :=
  ∀ (s : State) (ag : Agent) (n : Nat), n < 408 →
    let x := (s.body.site n).vx
    (∀ q, x.eng.head = some q → x.eng.launched = false → kickoffsOf (vxPeek s.body n q) ≠ [] →
      armedAt s.body (detOf 1 n) = false →
      let ds := vxPeek s.body n q
      let st := vxStatus (s.body.site n) ds q
      ((kickoffsOf ds).all (kickDue s.env.now) = false →
        exec (.vxKickoffLaunch n) s = .next (s.onSite n fun t => { t with vx.eng.cap := some ds }) ∧
        vxKwait s.env s.body n = true) ∧
      ((kickoffsOf ds).all (kickDue s.env.now) = true → (kickoffsOf ds).any (kickLate s.env.now) = false →
        exec (.vxKickoffLaunch n) s = .next (s.onSite n fun t => { t with vx :=
          if st = mxOk then { t.vx with eng := { t.vx.eng with launched := true, cap := some ds } } else t.vx.ends st 0 }))) ∧
    (∀ q r st, x.eng.q = q :: r → x.eng.done = some st → (s.core n).issue = none → (s.core n).wait = none →
      ∃ t, exec (.vxComplete n) s = .next t ∧
      let y := (t.body.site n).vx.eng
      y.q = r ∧ y.done = none ∧ y.launched = false ∧ y.last = st ∧
      (∀ c, (t.core n).cc.get 0 c = (s.core n).cc.get 0 c + if c = q.mxCc then 1 else 0) ∧
      (st = mxOk ∨ st = mxFlushed → y.halted = x.eng.halted ∧ y.err = x.eng.err ∧ (t.core n).epend = (s.core n).epend) ∧
      (st ≠ mxOk → st ≠ mxFlushed → y.halted = true ∧ (t.core n).epend = (s.core n).epend ||| 2 ∧
        y.err = if bitOf x.eng.err.toNat 63 then x.eng.err
                else BitVec.ofNat 64 (2 ^ 63 + st * 2 ^ 40 + x.uop * 2 ^ 32 + q.word.toNat))) ∧
    (mayWrite ag (oTl n 0x2000) = true →
      exec (.vxResume ag n) s = .next (s.onSite n fun t => { t with vx.eng.halted := false })) ∧
    (mayWrite ag (oTl n 0x2000) = true → (s.core n).issue = none →
      ∃ t, exec (.vxFlush ag n) s = .next t ∧
      let y := (t.body.site n).vx
      y.eng.q = [] ∧ y.eng.halted = false ∧ y.eng.done = none ∧ y.v = x.v ∧ y.k = x.k ∧ y.sums = x.sums ∧
      (∀ c, (t.core n).cc.get 0 c =
        (s.core n).cc.get 0 c + BitVec.ofNat 32 (x.eng.q.filter fun q => q.mxCc == c).length))

-- The sparse-solver sequencer.

/-- R241, R243, R246 to R248, R266: LOAD validates an image and records its address and header in a slot, or ends with the
status SCHEDULE and changes no slot; UNLOAD empties a slot; LAUNCH makes the launching tile's part, advances the run
number and forwards the descriptor to every other tile of the image's table in rank order; a forwarded launch joins the
queue of its tile while that has room, and is its tile's part once at the head; a part that has not begun ends with the
status of its checks, waits for its kickoff with KWAIT reading 1, or starts, takes the pieces held for it, and runs as far as
it can. Choices of the model in it: log entries 8, 9, 21. -/
def Obligations.SolverLaunch : Prop :=
  ∀ (s : State) (n : Nat), n < 408 → armedAt s.body (detOf 1 n) = false → armedAt s.body (detOf 4 n) = false →
    (s.core n).issue = none → (s.core n).wait = none →
    let t := s.body.site n
    let x := t.sv
    (∀ q, svHead s.body n = some q → q.svFunc = 1 → svEncodingOk q = true → q.a.toNat % 64 = 0 →
      let len := max 64 (SvHdr.ofNat (descAt s.body.mem n q.a.toNat)).len
      t.ownsAll 4 [(q.a.toNat, 64)] = true → t.ownsAll 4 [(q.a.toNat, len)] = true →
      t.wakingAny [(q.a.toNat, 64)] = false → t.wakingAny [(q.a.toNat, len)] = false →
      ∃ t, exec (.svLoad n) s = .next t ∧
      let y := (t.body.site n).sv
      let ok := svImageOk s.body.mem n q.a.toNat (s.body.tileOf n)
      y.q = x.q.tail ∧ t.body.mem = s.body.mem ∧ y.last = (if ok then mxOk else svSched) ∧ y.halted = !ok ∧
      y.slots = (if ok then x.slots.set q.svSlot (some { base := q.a.toNat, hdr := descAt s.body.mem n q.a.toNat })
        else x.slots) ∧
      (t.core n).cc.get 0 q.svCc = (s.core n).cc.get 0 q.svCc + 1) ∧
    (∀ q, svHead s.body n = some q → q.svFunc = 2 → svEncodingOk q = true → ∃ t, exec (.svUnload n) s = .next t ∧
      let y := (t.body.site n).sv
      y.q = x.q.tail ∧ y.slots = x.slots.set q.svSlot none ∧ y.last = mxOk ∧ y.halted = false ∧
      (t.core n).cc.get 0 q.svCc = (s.core n).cc.get 0 q.svCc + 1) ∧
    (∀ q, svHead s.body n = some q → q.svFunc = 0 → svEncodingOk q = true → q.a.toNat % 64 = 0 →
      t.ownsAll 4 [(q.a.toNat, 64)] = true → svLaunchWaits s.body n q.a.toNat = false →
      ∃ t, exec (.svLaunch n) s = .next t ∧ ∃ tiles : List Nat,
      let desc := descAt s.body.mem n q.a.toNat
      let l : SvLaunch := { run := { tile := s.body.svSelf n, no := (x.runNo + 1) % 2 ^ 16 }, desc := desc, word := q.word, tiles := tiles }
      (t.body.site n).sv = { x with runNo := l.run.no, part := some (SvPart.fresh l true) } ∧
      t.body.dev.flight.launches = s.body.dev.flight.launches ++ (tiles.filter (· != l.run.tile)).map (fun i => (i, l)) ∧
      (∀ k, s.body.svImage n (SvDesc.ofNat desc).slot = some k → (s.body.site n).ownsAll 4 [svTableOf k] = true →
        tiles = (List.range (SvHdr.ofNat k.hdr).t).map (svTile s.body.mem n k.base))) ∧
    (∀ l, s.body.dev.flight.launches.find? (fun l => svReaches s.body n l.1) = some l → x.q.length < 8 →
      ∃ t, exec (.forwardedLaunch n) s = .next t ∧
      (t.body.site n).sv = { x with q := x.q ++ [SvEntry.forwarded l.2] } ∧
      t.body.dev.flight.launches = s.body.dev.flight.launches.erase l) ∧
    (∀ l r cl, x.halted = false → x.q = .forwarded l :: r → x.part = none →
      exec (.svPartStart n cl) s = exec (.svPartStart n cl) (s.withBody (s.body.modSv n fun x =>
        { x with part := some (SvPart.fresh l false) }))) ∧
    (∀ p cl, x.halted = false → x.q ≠ [] → x.part = some p → p.started = false → p.ended = none → x.told p.run = false →
      let d := p.d
      t.wakingAny (svLooksAt t (s.body.svImage n d.slot)) = false →
      let st := svLaunchStatus t s.body.mem n (s.body.svImage n d.slot) d p.launcher
      (st ≠ mxOk → exec (.svPartStart n cl) s = .next (s.withBody (s.body.modPart n fun p => p.finish st))) ∧
      (st = mxOk → d.koen = true → kickDue s.env.now d.kickoff = false →
        exec (.svPartStart n cl) s = .next s ∧ svKwait s.env s.body n = true) ∧
      (st = mxOk → d.koen = false ∨ (kickDue s.env.now d.kickoff = true ∧ kickLate s.env.now d.kickoff = false) →
        exec (.svPartStart n cl) s = .next (s.withBody (svGo { s.env with clash := cl } n (releasePieces n
        ((s.body.modSv n fun x => { x with past := none }).modPart n fun p => { p with started := true, late := false }))))))

/-- R239, R249 to R252, R254, R260: what reaches a part. Pieces held for a part that is at their section now are written
first; then the oldest piece that can be taken is written if its part is at its section, dropped if its run is over, else
held within 16 KiB; a waiting part goes on where what it waits for has come, else nothing changes; a done piece is kept by
the launching part of its run, and dropped otherwise; a fail notice for the run under way ends its part with SPAN_FAIL.
Choices of the model in it: log entries 9, 21. -/
def Obligations.SolverTraffic : Prop :=
  ∀ (s : State) (n : Nat), n < 408 →
    let x := (s.body.site n).sv
    (let c := releasePieces n s.body
     let y := (c.site n).sv
     let takes := fun (p : SvPiece) =>
       svReaches c n p.dst && !pieceWaits (c.site n) p && (pieceFits y p || pieceOver c n p || y.heldBytes + p.size ≤ 0x4000)
     (c.dev.flight.pieces.find? takes = none → exec (.svPieceArrive n) s = .next (s.withBody c)) ∧
     (∀ p, c.dev.flight.pieces.find? takes = some p →
       let b : Body := { c with dev.flight.pieces := c.dev.flight.pieces.erase p }
       (pieceFits y p = true → exec (.svPieceArrive n) s = .next (s.withBody (deliverPiece n p b))) ∧
       (pieceFits y p = false → pieceOver c n p = true → exec (.svPieceArrive n) s = .next (s.withBody b)) ∧
       (pieceFits y p = false → pieceOver c n p = false →
         exec (.svPieceArrive n) s = .next (s.withBody (b.modSv n fun x => { x with held := x.held ++ [p] }))))) ∧
    (∀ p p' cl, x.part = some p → p.started = true → p.ended = none →
      let b := svGo { s.env with clash := cl } n (releasePieces n s.body)
      b.part n = some p' →
      let stays := p'.ended.isNone && p'.pos == p.pos && p'.recNo == p.recNo
      (stays = true → exec (.svWaitSatisfied n cl) s = .next s) ∧
      (stays = false → p.waiting = false → exec (.svWaitSatisfied n cl) s = .next (s.withBody b)) ∧
      (stays = false → p.waiting = true → ∃ t, exec (.svWaitSatisfied n cl) s = .next t ∧ t.body.part n = some p' ∧
        t.body.mem = b.mem ∧ (t.body.site n).sv.xwait = (b.site n).sv.xwait + Config.freeValue b.free)) ∧
    (∀ d p, s.body.dev.flight.dones.find? (fun d => svReaches s.body n d.1) = some d → x.part = some p →
      p.launcher = true → p.run = d.2.run → ∃ t, exec (.svDonePiece n) s = .next t ∧
      (t.body.site n).sv = { x with dones := x.dones ++ [d.2] } ∧
      t.body.dev.flight.dones = s.body.dev.flight.dones.erase d) ∧
    (∀ f p, s.body.dev.flight.fails.find? (fun f => svReaches s.body n f.1) = some f → x.part = some p → p.run = f.2.1 →
      ∃ t, exec (.svFailNotice n) s = .next t ∧
      (t.body.site n).sv = { x with failed := if x.told f.2.1 then x.failed else x.failed ++ [(f.2.1, f.2.2)]
                                    part := some (p.finish svSpanFail) } ∧
      t.body.dev.flight.fails = s.body.dev.flight.fails.erase f)

/-- R250 to R252, R262, R265: how a run ends. A part that has ended well is accounted for; the launching tile's is then
closed, another tile's reports to the launching tile and leaves the queue. With its own part closed and every done piece
there, the launching tile's run completes: its counter advances, the result record is written where RADDR names one, and the
notices of the run are forgotten. RESUME ends the halt; FLUSH empties the queue. Choices of the model in it: log entries 9,
21, 70. -/
def Obligations.SolverEnds : Prop :=
  ∀ (s : State) (ag : Agent) (n : Nat), n < 408 → (s.core n).issue = none → (s.core n).wait = none →
    let x := (s.body.site n).sv
    (∀ p, x.part = some p → p.ended = some mxOk → p.closed = false → p.launcher = true → x.told p.run = false →
      ∃ t, exec (.svPartEnd n) s = .next t ∧ (t.body.site n).sv.part = some { p with closed := true } ∧
      (t.body.site n).sv.runs = x.runs + 1 ∧ t.body.dev.flight.fails = s.body.dev.flight.fails ∧ t.body.mem = s.body.mem) ∧
    (∀ p, x.part = some p → p.ended = some mxOk → p.closed = false → p.launcher = false → x.told p.run = false →
      ∃ t, exec (.svPartEnd n) s = .next t ∧ (t.body.site n).sv.part = none ∧ (t.body.site n).sv.q = x.q.tail ∧
      (t.body.site n).sv.runs = x.runs + 1 ∧ (t.body.site n).sv.last = mxOk ∧ t.body.mem = s.body.mem ∧
      t.body.dev.flight.dones = s.body.dev.flight.dones ++
        [(p.run.tile, { run := p.run, tile := s.body.svSelf n, status := mxOk, nonfinite := p.nonfinite, nf := p.nf,
                        late := p.late })]) ∧
    (∀ p q r cl, x.part = some p → x.q = .issued q :: r → p.closed = true → p.ended = some mxOk →
      let ds := x.dones.filter (·.run == p.run)
      let late := p.late || ds.any (·.late)
      let nonfinite := p.nonfinite || ds.any (·.nonfinite)
      p.launch.tiles.length - 1 ≤ ds.length → ds.all (·.status == mxOk) = true →
      (p.d.ren = true → p.d.raddr % 8 = 0 ∧ (s.body.site n).ownsAll 4 [(p.d.raddr, 32)] = true ∧
        (s.body.site n).wakingAny [(p.d.raddr, 32)] = false) →
      (p.d.ren = true → ({ s.env with clash := cl } : Env).lostWords s.body 4 n (p.d.raddr, 32) = []) →
      ∃ t, exec (.svRunComplete n cl) s = .next t ∧ (t.body.site n).sv.q = r ∧ (t.body.site n).sv.part = none ∧
      (t.body.site n).sv.last = mxOk ∧ (t.body.site n).sv.dones = x.dones.filter (·.run != p.run) ∧
      (t.core n).cc.get 0 q.svCc = (s.core n).cc.get 0 q.svCc + 1 ∧ (p.d.ren = false → t.body.mem = s.body.mem) ∧
      (p.d.ren = true → ∃ nf cycles, t.body.mem = s.body.mem.setNum (siteBase n + p.d.raddr) 32
        (svResult p.run mxOk nonfinite late nf x.resid cycles))) ∧
    (mayWrite ag (oTl n 0x3000) = true → exec (.svResume ag n) s = .next (s.onSite n fun t => { t with sv.halted := false })) ∧
    (mayWrite ag (oTl n 0x3000) = true → ∃ t, exec (.svFlush ag n) s = .next t ∧ (t.body.site n).sv.q = [] ∧
      (t.body.site n).sv.part = none ∧ (t.body.site n).sv.halted = false ∧ (t.body.site n).sv.slots = x.slots ∧
      (x.part = none → t.body.mem = s.body.mem))


-- HBM, faults and the pager.

/-- R277 to R279: the HBM controllers, where no injection is armed. A scrub read goes on to the next line, and the lines
it goes through lie in its stack. A lane that qualifies takes the lowest-numbered free spare, which is kept for the boot
flash; with none left, or where a stack is lost otherwise, the stack is LOST and the device retires: every core stops and
every engine queue is empty. Choices of the model in it: log entries 9, 10, 28. -/
def Obligations.HbmControllers : Prop :=
  ∀ (s : State) (k lane : Nat), k < 12 → stackLost s.body k = false → armedAt s.body (detOf 7 k) = false →
    armedAt s.body (detOf 8 k) = false →
    let line := s.body.dev.scrub.get 0 k
    let spares := s.body.field (oHm k 0) 12 4
    let en := s.body.flag (oHm k 0x18) 16
    (en = true → exec (.scrubRead k) s =
      .next (s.withBody { s.body with dev.scrub := s.body.dev.scrub.set k ((line + 1) % 2 ^ 30) })) ∧
    (en = false → exec (.scrubRead k) s = .next s) ∧
    (line < 2 ^ 30 → (hbmPlace (scrubLine k line)).1 = k ∧ scrubLine k line < hbmTop) ∧
    (∀ n, lane < 2048 → spares ≠ 0 → freeSpare s.body k = some n → ∃ t, exec (.laneRepair k lane) s = .next t ∧
      t.body.csr (oHm k (0x40 + 8 * n)) = 2 ^ 63 + lane ∧ t.body.field (oHm k 0) 12 4 = spares - 1 ∧
      t.body.field (oHm k 0) 8 2 = 1 ∧ t.body.dev.repairs = s.body.dev.repairs ++ [(8 * k + n, lane)] ∧
      t.body.mem = s.body.mem ∧ (∀ m, t.core m = s.core m)) ∧
    exec (.laneRepairEnd k) s = .next (if s.body.field (oHm k 0) 8 2 = 1 then
      s.withBody (s.body.setField (oHm k 0) 8 2 0) else s) ∧
    (∀ i, i = .stackLost k ∨ (i = .laneRepair k lane ∧ lane < 2048 ∧ spares = 0) → ∃ t, exec i s = .next t ∧
      t.body.field (oHm k 0) 8 2 = 2 ∧ t.body.flag (oHm k 0) 0 = true ∧ t.body.retired = true ∧
      (s.body.retired = false → ∀ n, n < 408 → (s.core n).dslot = none → (t.core n).stopped = true ∧ (t.body.site n).mx.eng.q = [] ∧
        (t.body.site n).vx.eng.q = [] ∧ (t.body.site n).sv.q = [] ∧ (t.body.site n).cp.eng.q = []))

/-- R285: a fault of a context is resolved by an agent that commands it. The oldest record leaves, the oldest fault that
waits for a record becomes one, and no one stalls on the page any more. Under FAIL each core that stalled on it takes
DATA_FAULT 0x07 at its load or store; under RETRY its load or store starts anew. Choices of the model in it: log entry 9.
-/
def Obligations.PageFaults : Prop :=
  ∀ (s : State) (ag : Agent) (q : Nat), q < 8 →
    let pg := s.body.dev.pg
    (mayCommand s.body ag q = true → pg.faults.get [] q = [] →
      exec (.faultRetry ag q) s = .next s ∧ exec (.faultFail ag q) s = .next s) ∧
    (mayCommand s.body ag q = false →
      exec (.faultRetry ag q) s = .next (s.withBody (csrError s.env ag (oPgCtx q 7) s.body)) ∧
      exec (.faultFail ag q) s = .next (s.withBody (csrError s.env ag (oPgCtx q 7) s.body))) ∧
    (∀ r l, mayCommand s.body ag q = true → pg.faults.get [] q = r :: l →
      (∃ t, exec (.faultFail ag q) s = .next t ∧ t.body.mem = s.body.mem ∧
        t.body.dev.pg.faults.get [] q = l ++ (pg.extra.get [] q).take 1 ∧
        t.body.dev.pg.extra.get [] q = (pg.extra.get [] q).tail ∧
        t.body.dev.pg.stalls = pg.stalls.filter (fun k => k.2 != (q, r.page)) ∧
        t.body.dev.pg.failed = pg.failed ++ pg.stalls.filter (fun k => k.2 == (q, r.page)) ∧
        (∀ n m, n < 408 → coreStalls s.body q r.page n = true → (s.core n).mstall = some m → (s.core n).priv = false →
          t.core n = { (s.core n) with mstall := none }.enter 7 m.addr.toNat false ((s.core n).loops.atEnd (s.core n).pc)) ∧
        (∀ n, coreStalls s.body q r.page n = false → t.core n = s.core n)) ∧
      ((∀ n, n < 408 → coreStalls s.body q r.page n = false) → ∃ t, exec (.faultRetry ag q) s = .next t ∧
        t.body.mem = s.body.mem ∧ t.body.dev.pg.faults.get [] q = l ++ (pg.extra.get [] q).take 1 ∧
        t.body.dev.pg.extra.get [] q = (pg.extra.get [] q).tail ∧
        t.body.dev.pg.stalls = pg.stalls.filter (fun k => k.2 != (q, r.page)) ∧ (∀ n, t.core n = s.core n)) ∧
      (∀ n, n < 408 → (∀ m, m < 408 → coreStalls s.body q r.page m = decide (m = n)) → pg.extra.get [] q = [] →
        exec (.faultRetry ag q) s = .next (s.withBody (retryMem s.env n { s.body with dev.pg :=
          { pg with faults := pg.faults.set q l, stalls := pg.stalls.filter (fun k => k.2 != (q, r.page)) } }))))

/-- R286 to R288, R292: the life of a directive. The pager takes a VALID slot at the ring head and leaves an empty one;
the directive starts when its kickoff is due and no page of its range moves, with the status of its checks; it completes
once its pages and the moves of its context are done: the first and last bytes of the record are written back, HEAD goes to
the next slot and CC advances where CCEN asks. Choices of the model in it: log entries 8, 9, 22. -/
def Obligations.Directives : Prop :=
  ∀ (s : State) (ag : Agent) (q : Nat), q < 8 → mayCommand s.body ag q = true →
    (s.body.dir q ≠ none ∨ s.body.retired = true →
      exec (.pgDirKick ag q) s = .next s ∧ exec (.dirPoll q) s = .next s) ∧
    (∀ v, s.body.dir q = none → s.body.retired = false →
      vaRead s.env q (whoRing q) (dirSlotVa s.body q) 32 s.body = (.ok v, s.body) →
      exec (.dirPoll q) s = exec (.pgDirKick ag q) s ∧
      (bitOf (ofBytes v) 255 = false → exec (.pgDirKick ag q) s = .next s) ∧
      (bitOf (ofBytes v) 255 = true → ∃ t, exec (.pgDirKick ag q) s = .next t ∧ t.body.mem = s.body.mem ∧
        t.body.dir q = some { slot := s.body.field (oPgCtx q 5) 32 12, rcd := ofBytes v, started := false, todo := [],
                              budgetWait := false, status := 0, result := false })) ∧
    (∀ d, s.body.dir q = some d → d.started = false → s.body.retired = false →
      let koen := bitOf d.rcd 16
      let k := bitsOf d.rcd 32 32
      let checks := d.pages.map fun va => pageStatus d.op (walk s.body q va)
      let st := if d.bad then 1 else (checks.find? (· != 0)).getD 0
      (koen = true → kickDue s.env.now k = false → exec (.directiveStart q) s = .next s) ∧
      (koen = false ∨ kickDue s.env.now k = true →
        (d.bad = false → d.pages.any (fun va => (walk s.body q va).kind == .transit) = true →
          exec (.directiveStart q) s = .next s) ∧
        (d.bad = true ∨ d.pages.any (fun va => (walk s.body q va).kind == .transit) = false →
          ∃ t, exec (.directiveStart q) s = .next t ∧ t.body.mem = s.body.mem ∧
            t.body.dir q = some { d with started := true, status := st, todo := if st = 0 then d.pages else [] } ∧
            t.body.flag (oPgCtx q 5) 5 = (s.body.flag (oPgCtx q 5) 5 || (koen && kickLate s.env.now k))))) ∧
    (∀ d a b, s.body.dir q = some d → d.started = true → d.todo = [] →
      s.body.dev.pg.moves.any (fun m => m.q == q) = false →
      closeSlot s.env q (dirSlotVa s.body q) d.done s.body = (a, b) → a ≠ .stall →
      ∃ t, exec (.directiveComplete q) s = .next t ∧ t.body.mem = b.mem ∧ t.body.dir q = none ∧
        t.body.field (oPgCtx q 5) 32 12 = (d.slot + 1) % 2 ^ b.field (oPgCtx q 3) 60 4 % 2 ^ 12 ∧
        (bitOf d.rcd 17 = true → bitsOf d.rcd 160 16 < 384 →
          let n := b.siteOf (bitsOf d.rcd 160 16)
          (t.core n).cc.get 0 (bitsOf d.rcd 18 4) = ((b.site n).core).cc.get 0 (bitsOf d.rcd 18 4) + 1))

/-- R288 to R291: what the directive in progress does to the last page of its range, and how a move ends. FETCH and
OFFLOAD start a move, ALLOC maps a fresh frame that reads zero, FREE and RELEASE make the page ABSENT with W kept, RETAIN
sets RG or frees by the budget; a page without a frame waits and goes on when BUDGET_WAIT_END says so. A move waits for
every acknowledgement; then the page is copied and mapped, or put back as it was; no stack being LOST. Which free frame is
taken is open (log entry 3). Choices of the model in it: log entries 9, 22, 49, 64. -/
def Obligations.PageActions : Prop :=
  ∀ (s : State) (q va : Nat) (d : Dir), q < 8 → s.body.dir q = some d → d.started = true → d.status = 0 →
    d.todo = [va] → (∀ k, k < 12 → stackLost s.body k = false) → armedClass s.body 6 = false →
    let l := walk s.body q va
    let done := some { d with todo := [], budgetWait := false }
    let keep := residentPages s.body q + s.body.field (oPgCtx q 1) 32 24 ≤ s.body.field (oPgCtx q 1) 0 24
    let freed := s.body.mem.setNum l.ea 8 (b2n (entryW l.entry) * 8)
    (∀ f b, takeFrame s.body = (some f, b) → f % 0x20_0000 = 0 ∧ f < hbmTop ∧ f / 0x20_0000 ∉ usedFrames s.body ∧
      b = { s.body with free := s.body.free + 1 }) ∧
    (∀ f b, d.op = 1 → l.kind = .host → entryPin l.entry = false → moveRoom s.body l = true → budgetOk s.body q = true →
      poolHas s.body (portOf (entryAddr l.entry)) = true → takeFrame s.body = (some f, b) → ∃ t, exec (.dirFetch q) s = .next t ∧ t.body.dir q = done ∧
      t.body.mem = s.body.mem.setNum l.ea 8 (entryWith l.entry 3 f) ∧ t.body.dev.pg.moves = s.body.dev.pg.moves ++
        [{ q := q, va := va, entry := l.entry, src := entryAddr l.entry, dst := f, toHbm := true,
           waitAcks := List.range 420 }]) ∧
    (d.op = 1 → l.kind = .hbm ∨ (l.kind = .host ∧ entryPin l.entry = true) → ∃ t, exec (.dirFetch q) s = .next t ∧ t.body.dir q = done ∧ t.body.mem = s.body.mem ∧
      t.body.dev.pg.moves = s.body.dev.pg.moves) ∧
    (d.op = 1 → l.kind = .host → entryPin l.entry = false → moveRoom s.body l = true →
      budgetOk s.body q = false ∨ poolHas s.body (portOf (entryAddr l.entry)) = false →
      ∃ t, exec (.dirFetch q) s = .next t ∧ t.body.dir q = some { d with budgetWait := true } ∧ t.body.mem = s.body.mem) ∧
    (∀ f b, d.op = 2 → l.kind = .hbm → moveRoom s.body l = true → takeHostFrame (bitsOf va 21 1) s.body = (some f, b) →
      ∃ t, exec (.dirOffload q) s = .next t ∧ t.body.dir q = done ∧
      t.body.mem = s.body.mem.setNum l.ea 8 (entryWith l.entry 3 f) ∧ t.body.dev.pg.moves = s.body.dev.pg.moves ++
        [{ q := q, va := va, entry := l.entry, src := entryAddr l.entry, dst := f, toHbm := false,
           waitAcks := List.range 420 }]) ∧
    (∀ f b, d.op = 3 → l.kind = .absent → budgetOk s.body q = true → poolHas s.body (bitsOf va 21 1) = true → takeFrame s.body = (some f, b) →
      ∃ t, exec (.dirAlloc q) s = .next t ∧ t.body.dir q = done ∧
      t.body.mem = (s.body.mem.clear f 0x20_0000).setNum l.ea 8 (entryWith l.entry 1 f)) ∧
    (d.op = 4 → ∃ t, exec (.dirFree q) s = .next t ∧ t.body.mem = freed ∧ t.body.dir q = some { d with todo := [] }) ∧
    (d.op = 6 → ∃ t, exec (.dirRelease q) s = .next t ∧ t.body.mem = freed ∧ t.body.dir q = some { d with todo := [] }) ∧
    (d.op = 5 → ∃ t, exec (.dirRetain q) s = .next t ∧
      t.body.mem = (if keep then s.body.mem.setNum l.ea 8 (putBits l.entry 4 1 1) else freed) ∧
      t.body.dir q = some { d with todo := [], result := decide keep }) ∧
    (d.budgetWait = true → d.op = 3 → exec (.budgetWaitEnd q) s = exec (.dirAlloc q) s) ∧
    (d.budgetWait = false → exec (.budgetWaitEnd q) s = .next s) ∧
    (∀ m n, s.body.dev.pg.moves = [m] → m.q = q → m.waitAcks.contains n = true → stopBusy s.body n m.src = false →
      exec (.translationInvalAck q n) s = .next (s.withBody { s.body with
        dev.pg.moves := [{ m with waitAcks := m.waitAcks.erase n }] })) ∧
    (∀ m, s.body.dev.pg.moves = [m] → m.q = q → m.waitAcks = [] → m.toHbm = true → 0x4000_0000_0000 ≤ m.src →
      (∀ n, n < 408 → (s.core n).mstall = none) →
      let e := (walk s.body q m.va).ea
      let up := hostUp s.body (portOf m.src)
      (up = true → ∃ t, exec (.pageMoveDone q true) s = .next t ∧ t.body.dev.pg.moves = [] ∧
        t.body.mem = (s.body.mem.paste m.dst 0x20_0000 ((s.body.mem.clear m.dst 0x20_0000).slice m.src 0x20_0000)).setNum e 8
          (entryWith m.entry 1 m.dst)) ∧
      (∀ ok, ok = false ∨ up = false → ∃ t, exec (.pageMoveDone q ok) s = .next t ∧ t.body.dev.pg.moves = [] ∧
        t.body.mem = s.body.mem.setNum e 8 m.entry ∧ t.body.dir q = some { d with todo := [], status := 4 }))

-- Protection.

/-- R293, R294, R302: protection changes. The stage takes pairs, at most 256, and remembers a bad one; protection
registers hold what is written; a bump takes effect once no older access and no move of a staged page remains: the staged
entries are written, every held register is in effect, the epoch advances by one, and the stage is empty. The stage can be
dropped; a bump while one is under way does nothing; the host pool registers change only while their pool is wholly free.
Choices of the model in it: log entries 9, 22. -/
def Obligations.ProtectionChanges : Prop :=
  ∀ (s : State) (ag : Agent) (v : Word64) (o p : Nat) (size : Bool), mayWrite ag oPgStageData = true →
    let pg := s.body.dev.pg
    let w := v.toNat
    let drop := dropStage s.body
    let bad := 256 ≤ pg.staged.length ∨ bitsOf w 0 3 = 3 ∨ bitOf w 4 = true
    (¬ bad → exec (.stageAppend ag v) s = .next (s.withBody (s.body.modPg fun p =>
      { p with staged := p.staged ++ [(s.body.field oPgStageAddr 3 49 * 8, w)] }))) ∧
    (bad → ∃ t, exec (.stageAppend ag v) s = .next t ∧ t.body.flag oPgStat 18 = true ∧ t.body.dev.pg.staged = pg.staged) ∧
    (∀ r, isProtection o = true → mayWrite ag o = true → regSpec o = some r →
      encodingOk o (r.apply (s.body.csr o) w) = true → ∃ t, exec (.protRegWrite ag o v) s = .next t ∧
      t.body.csr o = r.apply (s.body.csr o) w % 2 ^ 64 ∧ o ∈ t.body.dev.pg.heldRegs ∧ t.body.dev.eff = s.body.dev.eff) ∧
    (mayWrite ag oPgCtl = true → pg.bumping = true → exec (.bump ag) s = .next s ∧ (csrWord s.env oPgCtl s.body).1 = 1) ∧
    (mayWrite ag oPgCtl = true → pg.bumping = false → s.body.flag oPgStat 18 = false →
      exec (.bump ag) s = .next (s.withBody (s.body.modPg fun p => { p with bumping := true }))) ∧
    (mayWrite ag oPgCtl = true → pg.bumping = false → s.body.flag oPgStat 18 = true →
      exec (.bump ag) s = .next (s.withBody (csrError s.env ag oPgCtl drop))) ∧
    (pg.bumping = false ∨ oldInflight s.body = true ∨ stagedMoves s.body = true → exec .protBumpApply s = .next s) ∧
    (pg.bumping = true → oldInflight s.body = false → stagedMoves s.body = false →
      ∃ t, exec .protBumpApply s = .next t ∧
      ((∀ k, k < 12 → stackLost s.body k = false) →
        t.body.mem = pg.staged.foldl (fun m x => m.setNum x.1 8 x.2) s.body.mem) ∧
      (∀ r, isProtection r = true → t.body.eff r = if r ∈ pg.heldRegs then s.body.csr r else s.body.eff r) ∧
      t.body.field oPgEpoch 0 32 = (s.body.field oPgEpoch 0 32 + 1) % 2 ^ 32 ∧
      t.body.dev.pg.staged = [] ∧ t.body.dev.pg.heldRegs = [] ∧ t.body.dev.pg.bumping = false) ∧
    (mayWrite ag oPgCtl = true → exec (.stageClear ag) s = .next (s.withBody (drop.setField oPgStat 18 1 0))) ∧
    (drop.dev.pg.staged = [] ∧ drop.dev.pg.heldRegs = [] ∧ drop.mem = s.body.mem) ∧
    (p < 2 →
      let free := s.body.field (oPgPoolSize p) 24 24 = s.body.field (oPgPoolSize p) 0 24
      (mayWrite ag (oPgPoolBase p) = true → free → ∃ t, exec (.hpoolWrite ag p false v) s = .next t ∧
        t.body.field (oPgPoolBase p) 21 26 = bitsOf w 21 26) ∧
      (mayWrite ag (oPgPoolSize p) = true → free → ∃ t, exec (.hpoolWrite ag p true v) s = .next t ∧
        t.body.field (oPgPoolSize p) 0 24 = bitsOf w 0 24 ∧ t.body.field (oPgPoolSize p) 24 24 = bitsOf w 0 24) ∧
      (¬ free → exec (.hpoolWrite ag p size v) s = .next (s.withBody
        (csrError s.env ag (if size then oPgPoolSize p else oPgPoolBase p) s.body))))

-- The time base.

/-- R306, R308 to R310, R319, R322: the time base's own commands. TB_SET sets the time forward once, in INIT under FREE; a
TB_CFG of legal values takes effect, and a change of SOURCE while TRACKING enters HOLDOVER; what PTP says on an enabled open
port is taken from its best master alone: a Sync, or a two-step one with its Follow_Up, gives a source time and sends a
Delay_Req, whose answer gives the path delay; a source time steps TB_TIME forward in INIT and is only slewed away
afterwards, within MAXSLEW (the servo's correction is open, log entry 3); a lost source ends TRACKING; a TIME message is remembered and the parent is the best neighbour heard on a live direct link;
TIME_SEND says time, hops and root; with its links and parent alive nothing is chosen anew. Choices of the model in it:
log entries 9, 31, 71. -/
def Obligations.TimeBaseCommands : Prop :=
  ∀ (s : State) (ag : Agent) (v : Word64) (port dom hops : Nat) (root serial : Word64),
    let t := s.time
    let settable := mayWrite ag oTbSet = true ∧ t.mode = .init ∧ t.source = 0 ∧ t.time < v
    let cfg := v.toNat % 2 ^ 24 &&& 0xFFFF3B
    let told := if t.stateEvt then s.body else s.body.raisePf 4
    let ptp := (port = 8 ∧ bitOf t.cfg.toNat 4 = true ∨ port = 9 ∧ bitOf t.cfg.toNat 5 = true) ∧
      s.body.carries port = true ∧ t.source = 1 ∧ dom = bitsOf t.cfg.toNat 16 8
    let i : Instr := .time port v hops root serial
    (settable → exec (.tbSetWrite ag v) s =
      .next { s with time := { t with time := v, frac := 0, mode := .free, stateEvt := true }, body := told }) ∧
    (¬ settable → exec (.tbSetWrite ag v) s = .next (s.withBody (csrError s.env ag oTbSet s.body))) ∧
    (mayWrite ag oTbCfg = true → encodingOk oTbCfg cfg = true → ∃ u, exec (.tbCfgWrite ag v) s = .next u ∧
      u.time.cfg = BitVec.ofNat 24 cfg ∧ u.time.time = t.time ∧ u.time.freq = t.freq ∧
      u.time.mode = (if bitsOf cfg 0 2 ≠ t.source ∧ t.mode = .tracking then .holdover else t.mode) ∧
      (bitOf cfg 3 = true → u.time.hops = 0 ∧ u.time.parent = 0xF)) ∧
    (mayWrite ag oTbCfg = false ∨ encodingOk oTbCfg cfg = false →
      exec (.tbCfgWrite ag v) s = .next (s.withBody (csrError s.env ag oTbCfg s.body))) ∧
    (∀ m, ¬ ptp → exec (.ptpMessage port dom m) s = .next s) ∧
    (∀ sender m, ptp → exec (.ptpMessage port dom (.announce sender m)) s =
      .next { s with time := { t with ptp := t.ptp.announce port sender m } }) ∧
    (∀ sender seq two, ptp → t.ptp.best ≠ some (port, sender) →
      exec (.ptpMessage port dom (.sync sender seq two v)) s = .next s ∧
      exec (.ptpMessage port dom (.followUp sender seq v)) s = .next s ∧
      exec (.ptpMessage port dom (.delayResp sender seq v)) s = .next s) ∧
    (∀ sender seq, ptp → t.ptp.best = some (port, sender) → exec (.ptpMessage port dom (.sync sender seq true v)) s =
      .next { s with time := { t with ptp := { t.ptp with sync := some (seq, t.time) } } }) ∧
    (∀ sender seq t3, ptp → t.ptp.best = some (port, sender) → t.ptp.req = some (seq, t3) →
      exec (.ptpMessage port dom (.delayResp sender seq v)) s = .next { s with time := { t with ptp :=
        { t.ptp with req := none, delay := (t.ptp.diff + ((v.toNat : Int) - t3.toNat)) / 2 } } }) ∧
    (∀ sender seq t2 m, ptp → t.ptp.best = some (port, sender) →
      (m = .sync sender seq false v ∧ t2 = t.time) ∨ (m = .followUp sender seq v ∧ t.ptp.sync = some (seq, t2)) →
      let src := BitVec.ofInt 64 ((t.time.toNat : Int) - ((t2.toNat : Int) - v.toNat) + t.ptp.delay)
      let d : Int := (src.toNat : Int) - t.time.toNat
      ∃ u, exec (.ptpMessage port dom m) s = .next u ∧ u.time.mode = .tracking ∧ u.time.offset = offsetBits d ∧
        u.body.dev.fab.wire = s.body.dev.fab.wire ++ [.delayReq port t.ptp.next] ∧ u.body.mem = s.body.mem ∧
        u.time.ptp = { t.ptp with sync := none, diff := (t2.toNat : Int) - v.toNat, req := some (t.ptp.next, t.time),
                                  next := (t.ptp.next + 1) % 2 ^ 16 } ∧
        (t.mode = .init → t.time < src → u.time.time = src ∧ u.time.frac = 0 ∧ u.time.freq = t.freq) ∧
        (t.mode ≠ .init ∨ ¬ t.time < src → u.time.time = t.time ∧ u.time.freq.toInt.natAbs ≤ t.slew ∧
          u.time.offsetAlarm = (t.offsetAlarm || decide (1000 < d.natAbs)))) ∧
    (let forgot := { t with ptp := { t.ptp with masters := [], sync := none, req := none } }
     exec .timeSourceLost s = .next (if t.mode = .tracking then
       { s with time := { forgot with mode := .holdover, stateEvt := true }, body := told } else { s with time := forgot })) ∧
    (s.body.timeLink port = false → exec i s = .next s ∧ exec (.timeSend port) s = .next s) ∧
    (s.body.timeLink port = true → ∃ u, exec i s = .next u ∧ u.body.mem = s.body.mem ∧
      u.time.heard = t.heard.set port { root := root, hops := hops, serial := serial } ∧
      ((∃ h ∈ u.time.heard, h.2.root ≠ root) → u.time.rootConflict = true) ∧
      (t.source = 2 → t.isRoot = false → u.time.parent = 0xF ∨
        ∃ h, (u.time.parent.toNat, h) ∈ u.time.heard ∧ s.body.timeLink u.time.parent.toNat = true ∧
          u.time.hops.toNat = h.hops + 1 ∧
          ∀ p g, (p, g) ∈ u.time.heard → s.body.timeLink p = true → g.before h = false)) ∧
    (s.body.timeLink port = true → t.isRoot = true → exec (.timeSend port) s =
      .next (s.withBody (s.body.send (.link port (linkMac s.body port 3) (linkPayload s.fuse.serial 3
        [(16, leBytes t.time.toNat 8), (24, leBytes t.hops.toNat 1), (32, leBytes s.fuse.serial.toNat 8)]))))) ∧
    ((∀ h ∈ t.heard, s.body.timeLink h.1 = true) → t.parent ≠ 0xF → s.body.timeLink t.parent.toNat = true →
      exec .parentReselect s = .next s)

-- Links.

/-- R321 to R323, R328 to R331, R353: a port comes up and goes down. EN set begins training and EN cleared takes the port
down; training that ends takes the widest width of the good lanes, or FAULT NO_WIDTH; a torus port with its PCS locked
says HELLO, faults on its own serial, on a wrong coordinate and without an answer, and is UP on a good HELLO, whose sender's
address it learns; a control frame of a reserved TYPE is counted and dropped; a link that goes down abandons its requests.
Choices of the model in it: log entries 9, 29. -/
def Obligations.LinkBringUp : Prop :=
  ∀ (s : State) (ag : Agent) (p : Nat), p < 10 →
    let b := s.body
    let q := b.port p
    let st := b.linkState p
    let en := b.flag (oFb p 0) 0
    (mayWrite ag (oFb p 0) = true → en = false → ∃ t, exec (.portEnable ag p true) s = .next t ∧ t.trains p ∧
      t.body.flag (oFb p 0) 0 = true ∧ (t.body.port p).laneMask = BitVec.ofNat 8 (b.field (oFb p 0) 8 8)) ∧
    (mayWrite ag (oFb p 0) = true → en = true → ∃ t, exec (.portEnable ag p false) s = .next t ∧
      t.body.linkState p = 0 ∧ t.body.flag (oFb p 0) 0 = false ∧ t.body.field (oFb p 0x10) 24 4 = 0) ∧
    (∀ x, mayWrite ag (oFb p 0) = true → en = x → exec (.portEnable ag p x) s = .next (s.afterLinks b)) ∧
    (∀ lanes g, b.training p = true → trainedLanes p q (lanes.toNat &&& q.laneMask.toNat) = some g →
      p < 8 ∨ (q.held = [] ∧ q.want = .none_ ∧ q.again = none) → ∃ t, exec (.linkTrained p lanes) s = .next t ∧
      t.body.linkState p = (if p < 8 then 1 else 2) ∧ t.body.field (oFb p 0x10) 8 8 = g % 256) ∧
    (∀ lanes, b.training p = true → trainedLanes p q (lanes.toNat &&& q.laneMask.toNat) = none →
      ∃ t, exec (.linkTrained p lanes) s = .next t ∧ t.faulted p 4) ∧
    (∀ lanes, b.training p = false → exec (.linkTrained p lanes) s = .next (s.afterLinks b)) ∧
    (p < 8 → b.training p = true → ∃ t, exec (.pcsLock p) s = .next t ∧ t.body.greeting p = true) ∧
    (b.greeting p = true →
      (exec (.helloSend p) s = .next (s.withBody (b.send (.link p (linkMac b p 1) (linkPayload s.fuse.serial 1
        [(12, leBytes b.coord 2), (14, leBytes (b2n q.llrEn + 2 * b2n (b.direct p)) 1)]))))) ∧
      (∃ t, exec (.helloTimeout p) s = .next t ∧ t.faulted p 1) ∧
      (∀ mac c x y, ∃ t, exec (.hello p s.fuse.serial c x y 1 mac) s = .next t ∧ t.faulted p 2) ∧
      (∀ mac serial c x y, serial ≠ s.fuse.serial → c.toNat ≠ b.neighbour p →
        ∃ t, exec (.hello p serial c x y 1 mac) s = .next t ∧ t.faulted p 3) ∧
      (∀ mac serial c x y, serial ≠ s.fuse.serial → c.toNat = b.neighbour p → q.held = [] → q.want = .none_ → q.bad = 0 →
        q.again = none → ∃ t, exec (.hello p serial c x y 1 mac) s = .next t ∧ t.body.linkState p = 2 ∧
          t.body.peer p = serial.toNat ∧ (t.body.port p).mac = mac ∧ t.body.llr p = (x && y && q.llrEn && b.direct p))) ∧
    (b.greeting p = false → exec (.helloSend p) s = .next s ∧ exec (.helloTimeout p) s = .next (s.afterLinks b) ∧
      ∀ mac serial c x y, exec (.hello p serial c x y 1 mac) s = .next (s.afterLinks b)) ∧
    (∀ typ mac serial c x y, typ = 0 ∨ 9 < typ → p < 8 → q.locked = true ∨ b.carries p = true →
      exec (.hello p serial c x y typ mac) s = .next (s.afterLinks (b.bumpSat (oFb p 0x40) 48 16))) ∧
    (linkMac b p 1 = if q.modeSw then b.field (oFb p 0x28) 0 48 else 2 ^ 48 - 1) ∧
    (st ≠ 0 → st ≠ 4 → ∃ t, exec (.linkDown p) s = .next t ∧ t.body.linkState p = 0 ∧ (t.body.port p).bad = 0 ∧
      (t.body.port p).held = [] ∧ (t.body.port p).req = .none_) ∧
    (st = 0 ∨ st = 4 → exec (.linkDown p) s = .next (s.afterLinks b))

/-- R322, R324 to R329, R460: a link that is up. Keepalives are said, compared and missed: a missed one retrains the link,
and what the neighbour says of the configuration sets or clears the port's bits. A bad lane is marked and recorded. A
width change is asked for, acknowledged, ordered by the end with the lower serial, switched at its time and ended by
relocking, or by a retrain; a retrain that either end asks for begins training. Choices of the model in it: log entries 8,
9, 29. -/
def Obligations.LinkUpkeep : Prop :=
  ∀ (s : State) (ag : Agent) (p : Nat), p < 8 →
    let b := s.body
    let q := b.port p
    let st := b.linkState p
    let sends := fun (x : Sent) => s.withBody (b.send x)
    let asks := s.withBody (control s.env p 4 [(12, leBytes q.good 1)] (b.modPort p fun q => { q with req := .width }))
    let leads := fun (t : State) (g : Nat) => t.body.linkState p = 3 ∧ (t.body.port p).goMask = BitVec.ofNat 8 g ∧
      (t.body.port p).goK = some (BitVec.ofNat 32 (s.env.now + 20000)) ∧ (t.body.port p).req = .none_
    (st = 2 → exec (.keepaliveSend p) s = .next (sends (.link p (linkMac b p 2) (linkPayload s.fuse.serial 2
      [(12, leBytes b.coord 2), (16, leBytes (b.field oMpEpoch 0 32) 4), (24, leBytes (b.csr (oMpDigest 0)) 8)])))) ∧
    (st ≠ 2 → exec (.keepaliveSend p) s = .next s ∧ exec (.keepaliveTimeout p) s = .next (s.afterLinks b)) ∧
    (st = 2 → ∃ t, exec (.keepaliveTimeout p) s = .next t ∧ t.trains p ∧ (t.body.port p).req = .retrain) ∧
    (∀ ep d, b.carries p = true → b.flag oMpStat 10 = false → ep.toNat = b.field oMpEpoch 0 32 →
      ∃ t, exec (.keepalive p ep d) s = .next t ∧ t.body.flag (oFb p 0x10) 28 = false ∧
      (d.toNat = b.csr (oMpDigest 0) → (t.body.port p).kaDiff = 0 ∧ t.body.flag oMpCfgchk p = false ∧
        t.body.flag oMpCfgchk (8 + p) = false) ∧
      (d.toNat ≠ b.csr (oMpDigest 0) → (t.body.port p).kaDiff = q.kaDiff + 1 ∧
        t.body.flag oMpCfgchk p = (b.flag oMpCfgchk p || decide (2 ≤ q.kaDiff)))) ∧
    (∀ ep d, b.carries p = true → b.flag oMpStat 10 = false → ep.toNat ≠ b.field oMpEpoch 0 32 →
      ∃ t, exec (.keepalive p ep d) s = .next t ∧ t.body.flag oMpCfgchk (8 + p) = true ∧
      t.body.flag oMpCfgchk p = (b.flag oMpCfgchk p || decide (q.skewTick.getD b.dev.ticks + 100000000 ≤ b.dev.ticks))) ∧
    (∀ lane, lane < 8 → b.direct p = true → b.carries p = true → armedAt b (detOf 9 p) = false →
      ∃ t, exec (.laneBad p lane) s = .next t ∧ bitOf (t.body.port p).bad.toNat lane = true ∧
      (∀ i, i ≠ lane → bitOf (t.body.port p).bad.toNat i = bitOf q.bad.toNat i) ∧
      ((t.body.port p).req = if st = 2 ∧ b.flag (oFb p 0) 3 = true ∧ bitOf (b.field (oFb p 0x10) 8 8) lane = true ∧
        q.req = .none_ then .width else q.req)) ∧
    (mayWrite ag (oFb p 8) = true → b.direct p = true → st = 2 → q.req = .none_ → exec (.portWidth ag p) s = .next asks) ∧
    (∀ m, b.direct p = true → st = 2 → q.req ≠ .width ∨ b.peer p ≤ s.fuse.serial.toNat →
      exec (.widthReq p m) s =
        .next (s.afterLinks (control s.env p 5 [(12, leBytes q.good 1)] (b.modPort p fun q => { q with req := .none_ })))) ∧
    (∀ m g, b.direct p = true → st = 2 → q.req = .width → pickLanes (q.good &&& m.toNat) = some g →
      (∃ t, exec (.widthAck p m) s = .next t ∧ leads t g) ∧
      (s.fuse.serial.toNat < b.peer p → ∃ t, exec (.widthReq p m) s = .next t ∧ leads t g)) ∧
    (∀ m, b.direct p = true → st = 2 → q.req = .width → pickLanes (q.good &&& m.toNat) = none →
      ∃ t, exec (.widthAck p m) s = .next t ∧ t.faulted p 4) ∧
    (∀ m k, b.direct p = true → st = 2 → ∃ t, exec (.widthGo p m k) s = .next t ∧ t.body.linkState p = 3 ∧
      (t.body.port p).goMask = m ∧ (t.body.port p).goK = some k ∧ (t.body.port p).switched = false) ∧
    (∀ k, q.goK = some k → b.direct p = true → st = 3 → q.switched = false →
      (goDue s.env k.toNat = true → ∃ t, exec (.widthSwitch p) s = .next t ∧ (t.body.port p).switched = true ∧
        t.body.field (oFb p 0x10) 8 8 = q.goMask.toNat) ∧
      (goDue s.env k.toNat = false → exec (.widthSwitch p) s = .next s)) ∧
    (b.relocking p = true → q.held = [] → q.want = .none_ → q.bad = 0 → q.again = none → ∃ t, exec (.linkRelock p) s = .next t ∧
      t.body.linkState p = 2 ∧ t.body.flag (oFb p 0x10) 30 = true ∧ (t.body.port p).switched = false) ∧
    (b.relocking p = true → ∃ t, exec (.relockTimeout p) s = .next t ∧ t.trains p ∧ (t.body.port p).held = q.held ∧
      (t.body.port p).want = q.want) ∧
    (st = 2 → ∃ t, exec (.retrainReq p) s = .next t ∧ t.trains p) ∧
    (st = 1 ∨ st = 3 → q.req ≠ .retrain → exec (.retrainReq p) s =
      .next (s.afterLinks (b.modPort p fun q => { q with held := q.held ++ [(.retrain, 0)] }))) ∧
    (mayWrite ag (oFb p 8) = true → b.flag (oFb p 0) 0 = true →
      (st = 2 → ∃ t, exec (.portRetrain ag p) s = .next t ∧ t.trains p ∧ (t.body.port p).req = .retrain) ∧
      (st = 1 ∨ st = 3 → exec (.portRetrain ag p) s =
        .next (s.afterLinks (b.modPort p fun q => { q with want := .retrain }))))

-- Transport and router.

/-- R332, R338 to R341, R345 to R350, R354: link retry, the transport and the router. Acknowledged frames leave the replay
buffer, refused ones are sent again, and an eighth replay faults the port. A DATA frame that is next in its flow waits to
be applied and its acknowledgement is due; one seen before is acknowledged again. An acknowledgement frees what it covers;
an expired timer doubles and its frame is sent again. A frame in transit goes on with its hop limit lowered; one with a bad
FCS, and a Horven frame at an open port, is counted and dropped. The dead table, the router's identity and neighbour solicitations answer as their registers say. Choices of the model in it: log
entries 8, 9, 29, 30. -/
def Obligations.TransportAndRouter : Prop :=
  ∀ (s : State) (ag : Agent) (p : Nat) (f : Frame),
    let b := s.body
    let q := b.port p
    let k := flowKey f.src.toNat f.tc.toNat
    let fl := b.flow k
    let freed := fun (n : BitVec 16) => q.replay.filter fun r => decide (0 ≤ serialDiff r.1.toNat n.toNat 16)
    let again := fun (l : List (BitVec 16 × Frame × Nat)) => l.map fun r => (r.1, r.2.1, r.2.2 + 1)
    let sent := fun (l : List (BitVec 16 × Frame × Nat)) => b.dev.fab.wire ++ l.map fun r => Sent.horven p r.2.1
    (∀ n, p < 8 → b.llr p = true → q.queue = [] → ∃ t, exec (.llrAck p n) s = .next t ∧
      (t.body.port p).replay = freed n ∧ t.body.dev.fab.wire = b.dev.fab.wire) ∧
    (∀ n, p < 8 → b.llr p = true → b.linkState p = 2 → (∀ r ∈ freed n, r.2.2 < 7) → ∃ t, exec (.llrNak p n) s = .next t ∧
      (t.body.port p).replay = again (freed n) ∧ t.body.dev.fab.wire = sent (freed n)) ∧
    (∀ n, p < 8 → b.llr p = true → b.linkState p = 2 → (∃ r ∈ freed n, r.2.2 = 7) → ∃ t, exec (.llrNak p n) s = .next t ∧ t.faulted p 5) ∧
    (p < 8 → b.llr p = true → b.linkState p = 2 → q.replay ≠ [] → (∀ r ∈ q.replay, r.2.2 < 7) → ∃ t, exec (.llrTimeout p) s = .next t ∧
      (t.body.port p).replay = again q.replay ∧ t.body.dev.fab.wire = sent q.replay) ∧
    (s.takesFrame p f = true → f.typ = 1 → f.ackv = false → b.dev.fab.deferred = [] →
      (f.isMgmt = false → 32 ≤ f.payload.length → 1 ≤ f.opc → f.opc ≤ 10 → f.seq.toNat = fl.expect → fl.got = [] →
        ∃ t, exec (.data p f) s = .next t ∧ t.body.dev.fab.inbox = b.dev.fab.inbox ++ [f] ∧
        (t.body.flow k).expect = (fl.expect + 1) % 2 ^ 32 ∧ (t.body.flow k).ackDue = true ∧ t.body.mem = b.mem) ∧
      (serialDiff f.seq.toNat fl.expect 32 < 0 → f.atom = false →
        exec (.data p f) s = .next (s.withBody (sendAck s.env k b)))) ∧
    (∀ x, s.takesFrame p f = true → f.typ = 2 → f.ackv = true → fl.unacked = [x] → fl.waiting = [] → x.aresp = false →
      0 ≤ serialDiff f.ackseq.toNat fl.ackHeld 32 → serialDiff x.f.seq.toNat f.ackseq.toNat 32 < 0 →
      ∃ t, exec (.ack p f) s = .next t ∧ (t.body.flow k).unacked = [] ∧ (t.body.flow k).ackHeld = f.ackseq.toNat) ∧
    (∀ x cl, s.takesFrame p f = true → f.typ = 3 → f.ackv = false → fl.unacked = [x] → fl.waiting = [] → x.aresp = true →
      x.acked = true → x.f.seq = f.seq → x.owners = [] → ∃ t, exec (.aresp p f cl) s = .next t ∧ (t.body.flow k).unacked = []) ∧
    (∀ c tc, exec (.ackDelayExpiry c tc) s = .next (if (b.flow (flowKey c.toNat tc.toNat)).ackDue = true then
      s.withBody (sendAck s.env (flowKey c.toNat tc.toNat) b) else s)) ∧
    (∀ x, fl.unacked = [x] → x.held = none → ∃ t, exec (.rtoExpiry f.src f.tc x.f.seq) s = .next t ∧
      (t.body.flow k).unacked = [{ x with rto := min (2 * x.rto) (b.field (oRtr 0x28) 16 16), retx := x.retx + 1,
                                          fast := false }]) ∧
    (∀ full, s.linkTakes p f = true → f.dst.toNat ≠ b.coord → (∀ i, i < 8 → (b.port i).queue = []) →
      exec (.frameForward p f full) s = .next (s.withBody (if f.hop ≤ 1 then b.bumpSat (oRtr 0x60) 32 16
        else routeFrame { s.env with full := full } (some p) { f with hop := f.hop - 1 } b))) ∧
    (p < 8 → b.carries p = true → b.llr p = false → armedAt b (detOf 9 p) = false → f.phy.fcsOk = false →
      f.phy.corr = 0 → f.phy.uncorr = 0 → f.typ = 1 → exec (.data p f) s = .next (s.withBody (crcFail s.env p false b))) ∧
    (8 ≤ p → p < 10 → b.carries p = true → armedAt b (detOf 9 p) = false → f.phy = PhyIn.clean → f.typ = 1 →
      exec (.data p f) s = .next (s.withBody (b.bumpSat (oFb p 0x40) 48 16))) ∧
    (f.onWire.ecn = 0 ∧ f.onWire.label = 0 ∧ f.onWire.udpSum = f.checksum) ∧
    (p < 8 → b.linkState p = 2 → q.queue ≠ [] → ∃ t, exec (.frameHoldTimeout p) s = .next t ∧
      (t.body.port p).queue = q.queue.tail ∧ t.body.field (oRtr 0x60) 0 32 = min (b.field (oRtr 0x60) 0 32 + 1) (2 ^ 32 - 1)) ∧
    (∀ c, mayWrite ag (oRtr 0x38) = true → b.dev.fab.comb = [] →
      (∀ tc, tc < 4 → (b.flow (flowKey c.toNat tc)).unacked = [] ∧ (b.flow (flowKey c.toNat tc)).waiting = []) →
      ∃ t, exec (.flowReset ag c) s = .next t ∧ (∀ tc, tc < 4 → t.body.flow (flowKey c.toNat tc) = Flow.initial) ∧
        t.body.dev.fab.inbox = b.dev.fab.inbox.filter (fun f => f.src.toNat != c.toNat)) ∧
    (∀ c, mayWrite ag (oRtr 0x40) = true → ∃ t, exec (.deadSet ag c) s = .next t ∧ t.body.dev.fab.dead.contains c = true ∧
      (∀ d, d ≠ c → t.body.dev.fab.dead.contains d = b.dev.fab.dead.contains d)) ∧
    (∀ c, mayWrite ag (oRtr 0x48) = true → ∃ t, exec (.deadClr ag c) s = .next t ∧
      t.body.dev.fab.dead = b.dev.fab.dead.filter (fun d => d != c) ∧
      t.body.field (oRtr 0x50) 0 32 = (b.dev.fab.dead.filter (fun d => d != c)).length % 2 ^ 32) ∧
    (∀ o v, o = 0 ∨ o = 8 ∨ o = 0x20 → mayWrite ag (oRtr o) = true → exec (.routerIdWrite ag o v) s = .next (s.withBody
      (if (List.range 8).any (fun x => b.flag (oFb x 0) 0) then csrError s.env ag (oRtr o) b
       else plainWrite s.env ag (oRtr o) v.toNat b))) ∧
    (∀ a u l, p = 8 ∨ p = 9 → b.carries p = true →
      armedAt b (detOf 9 p) = false → a.toNat ≠ b.csr (oFb p 0x80) * 2 ^ 64 + b.csr (oFb p 0x88) ∨ rxRule b p u.toNat = none →
      exec (.openPortReceive p a u l PhyIn.clean) s = .next (s.withBody (b.bumpSat (oFb p 0x40) 48 16))) ∧
    (∀ a u l n, p = 8 ∨ p = 9 → b.carries p = true → armedAt b (detOf 9 p) = false → a.toNat = b.csr (oFb p 0x80) * 2 ^ 64 + b.csr (oFb p 0x88) →
      rxRule b p u.toNat = some n → b.flag (oDg 0x30) n = false →
      exec (.openPortReceive p a u l PhyIn.clean) s = .next (s.withBody (handOver s.env
        { squad := bitsOf (b.eff (oFb p (0x100 + 8 * n))) 1 3, rule := n, time := s.env.now, bytes := l } b))) ∧
    (∀ a, p = 8 ∨ p = 9 → b.carries p = true → exec (.neighbourSolicitation p a) s = .next
      (if a.toNat = b.csr (oFb p 0x80) * 2 ^ 64 + b.csr (oFb p 0x88) then s.withBody (b.send (.advert p a.toNat))
       else s.withBody (b.bumpSat (oFb p 0x40) 48 16)))

-- The copy engine.

/-- R224, R356 to R364, R382, R383, R512: the copy engine. A launch gives the head a tag and the status of its first failing
check, or waits for its kickoff, by the descriptor as it stood when it reached the head; a put, a get, an atomic and an open
send do at once what lies within the device and hand the rest to the transport, for which the operation waits; an operation
that has everything completes: STATUS of its descriptor, whose write may lose a collision, its counter, LAST_STATUS, and for a
halting status the halt and EPEND bit 3. FLUSH completes what is queued, RESUME ends the halt. Choices of the model in it: log
entries 8, 9, 24, 62, 65, 66. -/
def Obligations.CopyEngine : Prop :=
  ∀ (s : State) (ag : Agent) (n tag : Nat) (cl : List Nat), n < 408 → (s.core n).issue = none → (s.core n).wait = none →
    let b := s.body
    let e : Env := { s.env with clash := cl }
    let x := (b.site n).cp
    let frames := fun (t : State) (k : Nat) => (t.body.flow k).unacked.length + (t.body.flow k).waiting.length
    (∀ q, x.eng.head = some q → x.ops.length < 64 → b.retired = false → cpEncodingOk q = false →
      ∃ t, exec (.cpLaunch n cl) s = .next t ∧ (t.body.site n).cp.eng.q = x.eng.q.tail ∧
      (t.body.site n).cp.ops = x.ops ++
        [CpOp.start (freeTag b) q 0 ((b.squadAt n).getD 8) 0 (some 8)] ∧ t.body.mem = b.mem) ∧
    (∀ q, x.eng.head = some q → x.ops.length < 64 → b.retired = false → cpEncodingOk q = true → q.cpColl = false →
      cpDescOk (b.site n) q = true → wakingIn (b.site n) (q.a.toNat, 64) = false →
      armedAt b (detOf 1 n) = false → armedAt b (detOf 5 n) = false →
      let l := x.eng.cap.getD [descAt b.mem n q.a.toNat]
      let d := l.headD 0
      let o := CpOp.start (freeTag b) q d ((b.squadAt n).getD 8) (b.csr (oTr 0x18)) none
      let koen := bitOf d 11
      let k := bitsOf d 32 32
      (koen = true → kickDue s.env.now k = false → exec (.cpLaunch n cl) s =
        .next (s.onSite n fun t => { t with cp.eng.cap := some l }) ∧
        (l ≠ [] → cpKwait s.env (s.onSite n fun t => { t with cp.eng.cap := some l }).body n = true)) ∧
      (koen = false ∨ (kickDue s.env.now k = true ∧ kickLate s.env.now k = false) →
        ∃ t, exec (.cpLaunch n cl) s = .next t ∧ (t.body.site n).cp.eng.q = x.eng.q.tail ∧ t.body.mem = b.mem ∧
        (t.body.site n).cp.ops = x.ops ++
          [{ o with status := if o.copyStatus b n = cpOk then none else some (o.copyStatus b n) }])) ∧
    (∀ o v w st c, pendingOp b n tag 1 false = some o → o.orphan = false → o.isLocal b = true →
      rctxOk b o.rtile o.rctx = true → sideRead e (o.here n) o.laddr o.localBytes b = (.ok v cpOk, b) →
      digWaits b [(o.tid, 0, o.org, v.length * 8 / fmtWidth o.sfmt)] = false →
      sideWrite e (o.there b n) o.raddr (o.convert o.org v).1 b = (.ok w st, c) →
      ∃ t, exec (.put n tag cl) s = .next t ∧ t.body.mem = c.mem ∧
      t.body.opOf n tag = some { o with status := some st, issued := true }) ∧
    (∀ o v, pendingOp b n tag 1 false = some o → o.orphan = false → o.isLocal b = false →
      sideRead e (o.here n) o.laddr o.localBytes b = (.ok v cpOk, b) →
      let l := piecesOf (pieceMax b) (o.convert o.org v).1
      let k := flowKey o.rdev o.tc
      ∃ t, exec (.put n tag cl) s = .next t ∧ t.body.mem = b.mem ∧ frames t k = frames s k + l.length ∧
      t.body.opOf n tag = some { o with issued := true, await_ := o.await_ + l.length }) ∧
    (∀ o v w st c, pendingOp b n tag 2 false = some o → o.orphan = false → o.isLocal b = true →
      rctxOk b o.rtile o.rctx = true → sideRead e (o.there b n) o.raddr o.remoteBytes b = (.ok v cpOk, b) →
      digWaits b [(o.tid, 0, o.org, v.length * 8 / fmtWidth o.sfmt)] = false →
      sideWrite e (o.here n) o.laddr (o.convert o.org v).1 b = (.ok w st, c) →
      ∃ t, exec (.get n tag cl) s = .next t ∧ t.body.mem = c.mem ∧
      t.body.opOf n tag = some { o with status := some st, issued := true }) ∧
    (∀ o, pendingOp b n tag 2 false = some o → o.orphan = false → o.isLocal b = false → o.comb = false →
      ∃ t, exec (.get n tag cl) s = .next t ∧ t.body.mem = b.mem ∧
      frames t (flowKey o.rdev o.tc) = frames s (flowKey o.rdev o.tc) + 1 ∧
      t.body.opOf n tag = some { o with issued := true, await_ := o.await_ + 1 }) ∧
    (∀ o, pendingOp b n tag 3 false = some o → o.orphan = false → o.isLocal b = false → o.comb = false →
      o.atom64 = true ∨ (∃ v, sideRead s.env (o.here n) o.laddr (4 * o.nelem) b = (.ok v cpOk, b)) →
      ∃ t, exec (.atomic n tag) s = .next t ∧ t.body.mem = b.mem ∧
      frames t (flowKey o.rdev o.tc) = frames s (flowKey o.rdev o.tc) + 1 ∧
      t.body.opOf n tag = some { o with issued := true, await_ := o.await_ + 1 }) ∧
    (∀ o v, pendingOp b n tag 4 false = some o → b.carries (8 + o.rtile % 2) = true →
      sideRead s.env (o.here n) o.laddr o.nelem b = (.ok v cpOk, b) → ∃ t, exec (.osend n tag) s = .next t ∧
      t.body.dev.fab.wire = b.dev.fab.wire ++
        [.udp (8 + o.rtile % 2) (o.d 384 48) (o.raddr * 2 ^ 64 + o.d 320 64) o.rdev v] ∧
      t.body.opOf n tag = some { o with status := some cpOk }) ∧
    (∀ o, pendingOp b n tag 4 false = some o → b.carries (8 + o.rtile % 2) = false → exec (.osend n tag) s = .next s) ∧
    (∀ o, b.opOf n tag = some o → o.finished b = none → exec (.cpComplete n tag cl) s = .next s) ∧
    (∀ o, b.opOf n tag = some o → o.orphan = false → statusWaits (b.site n) o.entry = true →
      exec (.cpComplete n tag cl) s = .next s) ∧
    (∀ o st, b.opOf n tag = some o → o.finished b = some st → o.coll = false → o.orphan = false →
      statusWaits (b.site n) o.entry = false → ∃ t, exec (.cpComplete n tag cl) s = .next t ∧
      let y := (t.body.site n).cp
      let w := if cpDescOk (b.site n) o.entry then unitWrite e 5 n (o.entry.a.toNat + 63, 1)
        (b.mem.set (siteBase n + o.entry.a.toNat + 63) (BitVec.ofNat 8 st)) b else (false, b)
      let last := if st = cpOk ∧ w.1 = true then cpCollide else st
      y.ops = x.ops.filter (fun o => o.tag != tag) ∧ y.eng.last = last ∧ y.eng.halted = (x.eng.halted || cpHalts last) ∧
      (t.core n).cc.get 0 o.entry.cpCc = (s.core n).cc.get 0 o.entry.cpCc + 1 ∧
      (t.core n).epend = (if cpHalts last then (s.core n).epend ||| 8 else (s.core n).epend) ∧
      t.body.mem = w.2.mem) ∧
    (mayWrite ag (oTl n 0x4000) = true →
      (exec (.cpResume ag n) s = .next (s.onSite n fun t => { t with cp.eng.halted := false })) ∧
      ∃ t, exec (.cpFlush ag n cl) s = .next t ∧ (t.body.site n).cp.eng.q = [] ∧ (t.body.site n).cp.eng.halted = false ∧
        ((∀ q ∈ x.eng.q, statusWaits (b.site n) q = false) → (t.body.site n).cp.ops = x.ops) ∧
        (∀ c, (t.core n).cc.get 0 c = (s.core n).cc.get 0 c + BitVec.ofNat 32
          (x.eng.q.filter fun q => q.cpCc == c && !statusWaits (b.site n) q).length))

-- Collectives.

/-- R224, R378, R380, R386 to R394, R408: collectives. A reduction sends its pieces once, unless the lineup has already left it
out, and reduces its own segment when all it waits for is there; a gather copies its own slot and fetches the others; a rank
whose pieces are acknowledged arrives, at the root or by a notice to it; the root closes when every member has arrived, or at
its whistle with enough of them, and keeps a record of the lineup, which goes to the log while that has room; a staled
collective returns its contribution and ends STALE. Choices of the model in it: log entries 8, 9, 25, 26, 62. -/
def Obligations.Collectives : Prop :=
  ∀ (s : State) (ag : Agent) (n tag : Nat) (cl : List Nat),
    let b := s.body
    let e : Env := { s.env with clash := cl }
    (∀ o v c, c = 1 ∨ c = 3 → collOp b n tag c = some o → o.issued = false → o.orphan = false → o.leftOut b = false →
      sideRead e (o.here n) o.src (packedBytes o.dfmt o.nelem) b = (.ok v cpOk, b) →
      o.when_ = true ∧ o.closed = false ∨
        o.when_ = false ∧ (∃ j ∈ o.peers b, o.landedFrom j < packedBytes o.dfmt (o.seg b)) →
      ∃ t p, exec (if c = 1 then .reduceScatter n tag cl else .allReduce n tag cl) s = .next t ∧ t.body.mem = b.mem ∧
        t.body.opOf n tag = some p ∧ p.issued = true ∧ o.await_ ≤ p.await_ ∧ p.status = none ∧ p.gather = o.gather) ∧
    (∀ o c, c = 1 ∨ c = 3 → collOp b n tag c = some o → o.issued = false → o.leftOut b = true →
      exec (if c = 1 then .reduceScatter n tag cl else .allReduce n tag cl) s =
        .next (s.withBody (collProgress e n tag (issued n tag b)))) ∧
    (∀ o c, collOp b n tag 1 = some o → o.issued = true → o.ready b = true → o.mustCarry b = false →
      reduceOwn e n o b = (some cpOk, c) →
      exec (.reduceScatter n tag cl) s = .next (s.withBody (c.modOp n tag fun x => { x with gather := true }))) ∧
    (∀ o c, collOp b n tag 3 = some o → o.issued = true → o.ready b = true → o.mustCarry b = false →
      reduceOwn e n o b = (some cpOk, c) →
      let g := readyFor e o.tc (· == o.collid) (c.modOp n tag fun x => { x with gather := true })
      exec (.allReduce n tag cl) s =
        .next (s.withBody (if o.sourceDead g then endOp n tag cpDead g else sendGathers e n o g))) ∧
    (∀ o v w d c st, c = 2 ∨ c = 4 → collOp b n tag c = some o → o.issued = false → o.orphan = false →
      c = 2 ∨ o.root = rankOf b o.ax → sideRead e (o.here n) o.src (o.slotBytes b) b = (.ok v cpOk, b) →
      let i := if c = 4 then 0 else rankOf b o.ax * o.seg b
      digWaits b [(o.tid, 0, i, v.length * 8 / fmtWidth o.dfmt)] = false →
      sideWrite e (o.here n) (o.elemAddr o.dst i) v b = (.ok w st, d) →
      ∃ t p, exec (if c = 2 then .allGather n tag cl else .broadcast n tag cl) s = .next t ∧ t.body.mem = d.mem ∧
        t.body.opOf n tag = some p ∧ p.issued = true ∧ p.status = if st = cpOk then none else some st) ∧
    (∀ o, collOp b n tag 4 = some o → o.issued = false → o.root ≠ rankOf b o.ax →
      exec (.broadcast n tag cl) s = .next (s.withBody (issued n tag (sendGathers e n o b)))) ∧
    (∀ o, b.opOf n tag = some o → o.coll = true → o.reduces = true → o.when_ = true → o.issued = true →
      o.await_ = 0 → o.selfArrived = false → o.closed = false → o.stale = false → o.status = none →
      let me := rankOf b o.ax
      (o.rootPos = me → ∃ t p, exec (.rankArrive n tag) s = .next t ∧ t.body.opOf n tag = some p ∧
        p.selfArrived = true ∧ p.arrived = o.arrived ||| 2 ^ me) ∧
      (o.rootPos ≠ me → ∃ t p, exec (.rankArrive n tag) s = .next t ∧ t.body.opOf n tag = some p ∧
        p.selfArrived = true ∧ p.arrived = o.arrived ∧
        ((t.body.flow (flowKey (o.device b o.rootPos) o.tc)).waiting ≠ [] ∨
          (t.body.flow (flowKey (o.device b o.rootPos) o.tc)).unacked ≠ []))) ∧
    (∀ o, b.opOf n tag = some o → o.coll = true → o.reduces = true → o.when_ = true → o.status = none → o.stale = false →
      o.closed = false → o.rootPos = rankOf b o.ax → b.flag (oTr 0x38) 8 = false → b.dev.tr.lineups = [] →
      let all := o.arrived &&& ringMembers o b = ringMembers o b
      let whistle := o.whenLate = true ∨ kickDue s.env.now o.whistle = true
      let closes := fun c => exec (.reductionClose n tag cl) s = .next (s.withBody (closeRoot e n o o.arrived c true b))
      (all → closes 0) ∧
      (¬ all → o.straggler = 0 ∨ o.minAt = none ∨ ¬ whistle → exec (.reductionClose n tag cl) s = .next s) ∧
      (∀ m, ¬ all → o.straggler ≠ 0 → o.minAt = some m → whistle →
        closes (if o.whenLate = true ∨ serialDiff o.whistle m 32 < 0 then 2 else 1))) ∧
    (∀ r l v, b.dev.tr.lineups = r :: l → vaRead s.env (trSquad b) whoLog (logSlot b) 32 b = (.ok v, b) →
      (bitOf (ofBytes v) 255 = true → exec .lineupLogWrite s = .next (s.withBody (b.setField (oTr 0x40) 5 1 1))) ∧
      (∀ w c, bitOf (ofBytes v) 255 = false → vaWrite s.env (trSquad b) whoLog (logSlot b) (leBytes r 32) b = (.ok w, c) →
        ∃ t, exec .lineupLogWrite s = .next t ∧ t.body.dev.tr.lineups = l ∧ t.body.mem = c.mem ∧
          t.body.flag (oTr 0x40) 5 = false)) ∧
    (b.dev.tr.lineups = [] → exec .lineupLogWrite s = .next s) ∧
    (∀ o, b.opOf n tag = some o → o.coll = true → o.stale = true → o.status = none → o.await_ = 0 →
      (o.reduces = false → exec (.staleCollectiveFinish n tag cl) s = .next (s.withBody (endOp n tag cpStale b))) ∧
      (∀ c st, o.reduces = true → copyToRet e n o b = (some st, c) → exec (.staleCollectiveFinish n tag cl) s =
        .next (s.withBody (endOp n tag (if st = cpOk then cpStale else st) c)))) ∧
    (mayWrite ag (oTr 0x38) = true →
      (∃ t, exec (.clearCarry ag) s = .next t ∧ t.body.dev.tr.carry = [] ∧ t.body.field (oTr 0x40) 16 13 = 0 ∧
        t.body.field (oTr 0x48) 0 32 = min (b.field (oTr 0x48) 0 32 + b.dev.tr.carry.length) (2 ^ 32 - 1)) ∧
      (n < 408 → ∃ t, exec (.replayRelease ag) s = .next t ∧ t.body.mem = b.mem ∧
        (t.body.site n).cp.ops = (b.site n).cp.ops.map fun o =>
          if o.mismatch then { o with mismatch := false, released := true } else o))

-- What operations meet at the other end.

/-- R363 to R367, R371 to R376, R387, R408: the oldest frame of its kind at the device it is for, with nothing else in the
inbox. A piece of a put is written where it points, once a full digest buffer lets it; a get is read and goes back in pieces; returned data lands at its
operation; a status ends it; a frame of a newer generation is answered NOTREADY and stays; a held frame waits for READY
and then goes again; a returned stale piece lands and ends its operation STALE; an atomic goes to the atomic unit, or is
combined on its way; an arrival notice counts at the root. Choices of the model in it: log entries 9, 23, 24, 25, 41, 62. -/
def Obligations.FabricRequests : Prop :=
  ∀ (s : State) (f : Frame) (cl : List Nat) (tid : BitVec 16) (first : BitVec 40), s.body.dev.fab.inbox = [f] →
    let b : Body := { s.body with dev.fab.inbox := [] }
    let e : Env := { s.env with clash := cl }
    let h := headOf f
    let k := flowKey f.src.toNat f.tc.toNat
    let n := b.siteOf h.rtile
    let here := h.hop = false ∨ h.final = b.coord
    let open_ := (h.genchk = false ∨ h.gen = b.gen) ∧ rctxOk b h.rtile h.rctx = true
    let newer := h.genchk = true ∧ 0 < genOf b h
    let free := b.holdOf h.rtile = false ∧ donorWaits b h.rtile h.rctx = false
    let next := fun (c : Body) => (.next (s.withBody (applied f c)) : Host.Outcome State Fault Refusal)
    let mine := h.orig = b.coord ∧ b.dev.fab.comb.find? (entryOf h) = none
    (∀ n', f.opc = 1 → open_ → free → h.addr < 2 ^ 21 → n' = n → n' < 408 → armedClass b 6 = false →
      digWaits b [(tid.toNat, 0, first.toNat, f.body.length * 8 / fmtWidth h.fmt)] = false →
      (b.site n').servesAll 6 [(h.addr, f.body.length)] = true → wakingIn (b.site n') (h.addr, f.body.length) = false →
      ∃ t, exec (.putData tid first) s = .next t ∧ t.body.mem = b.mem.write (siteBase n' + h.addr) f.body ∧
      t.body.dev.fab.inbox = [] ∧ (f.src.toNat ≠ b.coord → (t.body.flow k).ackDue = true)) ∧
    (f.opc = 1 → newer → exec (.putData tid first) s = next (notReady s.env f 0 b)) ∧
    (∀ v, f.opc = 2 → here → h.rtile ≠ collTile → open_ →
      sideRead s.env (sideOf b h.rtile h.rctx whoInbox none) h.addr (packedBytes h.fmt h.count) b = (.ok v cpOk, b) →
      exec .getReq s = next (sendGetData s.env f v b)) ∧
    (∀ m o c st, f.opc = 3 → mine → b.findTag h.tag = some (m, o) → b.opOf m h.tag = some o → o.coll = false →
      o.got.any (fun g => g.1 == h.count) = false → landBytes e m o h f.body b = (some st, c) →
      exec (.getData cl) s = next (
        let d := c.modOp m h.tag fun x => { x with got := x.got ++ [(h.count, f.body.length)] }
        if st ≠ cpOk then endOp m h.tag st d
        else if o.remoteBytes ≤ o.gotFrom 0 + f.body.length then endOp m h.tag cpOk d else d)) ∧
    (∀ m o, f.opc = 10 → mine → b.findTag h.tag = some (m, o) → exec .status s = next (statusOp (h.count % 256) (m, h.tag) b)) ∧
    (f.opc = 7 → exec .notready s = next (b.modFlow k fun fl =>
      { fl with unacked := mapWhere fl.unacked (answers f) fun t => { t with held := some h.count } })) ∧
    (∀ x, f.opc = 8 → (b.flow k).unacked = [x] → x.held = some h.count → ∃ t, exec .ready s = .next t ∧
      (t.body.flow k).unacked = [{ x with held := none, retx := x.retx + 1 }]) ∧
    (∀ m o w st c, f.opc = 9 → h.orig = b.coord → b.findTag h.tag = some (m, o) → o.coll = false →
      sideWrite e (o.here m) (o.laddr + (h.addr - o.raddr)) f.body b = (.ok w st, c) →
      exec (.staleRet cl) s = next (statusOp (if st = cpCollide then cpCollide else cpStale) (m, o.tag) c)) ∧
    (∀ i pa a c, (i = .atom ∧ f.opc = 4 ∨ i = .atomPart ∧ f.opc = 5) → here → open_ →
      sidePlace s.env (sideOf b h.rtile h.rctx whoInbox none) h.addr (atomSpan f) b = ((some pa, a), c) →
      exec i s = next { c with dev.fab.atomQ := c.dev.fab.atomQ ++
        [{ f := f, aop := h.aop, count := if f.opc = 5 then h.count else 1, pa := pa, waited := false }] }) ∧
    (∀ i c, (i = .atom ∧ f.opc = 4 ∨ i = .atomPart ∧ f.opc = 5) → h.hop = true → h.final ≠ b.coord →
      joinAtom f [f] [] b = some c ∨
        joinAtom f [f] [] b = none ∧ openAtom f [f] (contributions f) (firstSums f) b = some c → exec i s = next c) ∧
    (∀ m o, f.opc = 6 → h.gen = b.gen → h.addr = noticeAddr → b.dev.tr.closedColl.contains (h.count % 2 ^ 12, h.step) = false →
      matchingColl b (h.count % 2 ^ 12) h = some (m, o) →
      exec (.collData cl) s = next (arrive e m o.tag (h.count / 2 ^ 12 % 16) b)) ∧
    (f.opc = 6 → 0 < genOf b h → exec (.collData cl) s = next (notReady e f (h.count % 2 ^ 12) b))

/-- R141, R364, R368 to R370, R373: the atomic units, on one job of another device whose line is good. The 64-bit atomics
store their result and keep the old value for the answer; FADD32 adds exactly and stores the sum rounded once; FMAX32 and
FMIN32 store the extreme. A FADD32 that waits too long for a register is dropped and counted; a combining window that ends
sends one partial onward. Choices of the model in it: log entries 9, 32, 40, 43. -/
def Obligations.AtomicUnits : Prop :=
  ∀ (s : State) (j : AtomJob) (cl : List Nat), s.body.dev.fab.atomQ = [j] → s.body.holdOf (headOf j.f).rtile = false →
    j.f.src.toNat ≠ s.body.coord → j.pa % 4 = 0 →
    let b := s.body
    let stack := (hbmPlace j.pa).1
    stackLost b stack = false → armedAt b (detOf 7 stack) = false → b.dev.poison.contains (j.pa / 64 * 64) = false →
    let old := b.mem.num j.pa 8
    let x := atomOpnd j.f 0
    let y := atomOpnd j.f 1
    let k := flowKey j.f.src.toNat j.f.tc.toNat
    (∀ i a v, (i = .iadd64 cl ∧ a = 3 ∧ v = old + x) ∨ (i = .swap64 cl ∧ a = 4 ∧ v = x) ∨
      (i = .cas64 cl ∧ a = 5 ∧ v = if old = x then y else old) ∨
      (i = .imax64 cl ∧ a = 6 ∧ v = if sInt 64 old < sInt 64 x then x else old) ∨
      (i = .imin64 cl ∧ a = 7 ∧ v = if sInt 64 x < sInt 64 old then x else old) → j.aop = a → j.pa % 8 = 0 → j.f.atom = true →
      ∃ t, exec i s = .next t ∧ t.body.mem = b.mem.write j.pa (leBytes v 8) ∧ t.body.dev.fab.atomQ = [] ∧
        (t.body.flow k).results.get (2 ^ 32, 0) (j.f.seq.toNat % 64) = (j.f.seq.toNat, old * 2 ^ 64)) ∧
    (∀ r v, j.aop = 0 → j.f.opc = 4 → atomValues j.f = [v] →
      b.dev.fab.sums.find? (fun z => z.pa == j.pa && z.step == (headOf j.f).step) = some r →
      ∃ t, exec .fadd32 s = .next t ∧ t.body.mem = b.mem.write j.pa (leBytes (r.addBits v).value.1 4) ∧
        t.body.dev.fab.atomQ = [] ∧ r.addBits v ∈ t.body.dev.fab.sums) ∧
    (∀ i hi v, (i = .fmax32 ∧ hi = true ∧ j.aop = 1) ∨ (i = .fmin32 ∧ hi = false ∧ j.aop = 2) → j.f.opc = 4 →
      atomValues j.f = [v] → ∃ t, exec i s = .next t ∧ t.body.dev.fab.atomQ = [] ∧
        t.body.mem = b.mem.write j.pa (leBytes (fpMinMax hi 1 (b.mem.num j.pa 4) v).1 4)) ∧
    (j.aop = 0 → j.waited = true → ∃ t, exec .asumWaitTimeout s = .next t ∧ t.body.dev.fab.atomQ = [] ∧
      t.body.mem = b.mem ∧ (t.body.site (b.siteOf (headOf j.f).rtile)).cp.asumDrop.toNat =
        min ((b.site (b.siteOf (headOf j.f).rtile)).cp.asumDrop.toNat + j.count) (2 ^ 32 - 1)) ∧
    (∀ i c, b.dev.fab.comb[i]? = some c → c.open_.opc = 4 ∨ c.open_.opc = 5 → ∃ t, exec (.combineWindowEnd i) s = .next t ∧
      t.body.dev.fab.comb = b.dev.fab.comb.eraseIdx i ∧ t.body.mem = b.mem) ∧
    (∀ i, b.dev.fab.comb[i]? = none → exec (.combineWindowEnd i) s = .next s)

-- The training runtime.

/-- R395 to R406, R408, R411: micro-batches, update records, the parameter home and the layout generation. MB_START
restarts the count or is refused while it runs; a micro-batch is admitted while credits last and its slot is empty; a scan
gives back what a finished slot took. The runtime takes the record at the head of its ring, starts it at its kickoff, and
runs it with its one OP, which writes no memory but the lines that the OP writes; SGD of one FP32 line gives each weight
the value of R405; completion frees the ring's head, and a bad status halts the runtime. Choices of the model in it: log
entries 8, 9, 33, 45. -/
def Obligations.TrainingRuntime : Prop :=
  ∀ (s : State) (ag : Agent) (v : Word64),
    let b := s.body
    let i := b.field oMbStat 0 13
    let cred := b.field oMbCfg 16 16
    let free := b.field oMbStat 32 16
    let running := b.flag oMbStat 48
    let refuses := fun (o : Nat) => s.withBody (csrError s.env ag o b)
    let scanned := s.withBody (foldN 64 (mbScanSlot s.env) b)
    (mayWrite ag (oTr 0x98) = true → running = false →
      exec (.mbStart ag) s = .next (s.withBody ((b.setField oMbStat 0 13 0).setField oMbStat 48 1 1))) ∧
    (mayWrite ag (oTr 0x98) = false ∨ running = true → exec (.mbStart ag) s = .next (refuses (oTr 0x98))) ∧
    (running = false ∨ b.retired = true ∨ b.field oMbCfg 0 13 ≤ i ∨ free < cred → exec .mbAdmit s = .next s) ∧
    (∀ old w c, running = true → b.retired = false → i < b.field oMbCfg 0 13 → cred ≤ free →
      vaRead s.env (trSquad b) whoBatch (mbSlotVa b i) 16 b = (.ok old, b) →
      (ofBytes old ≠ 0 → exec .mbAdmit s = .next s) ∧
      (ofBytes old = 0 → vaWrite s.env (trSquad b) whoBatch (mbSlotVa b i) (leBytes (mbSlotWord b i) 16) b = (.ok w, c) →
        ∃ t, exec .mbAdmit s = .next t ∧ t.body.mem = c.mem ∧ t.body.field oMbStat 0 13 = i + 1 ∧
          t.body.field oMbStat 32 16 = free - cred)) ∧
    (b.retired = false → exec .mbScan s = .next scanned ∧
      (mayWrite ag (oTr 0x98) = true → exec (.mbKick ag) s = .next scanned)) ∧
    (b.retired = true → exec .mbScan s = .next s) ∧
    (∀ j l w c, vaRead s.env (trSquad b) whoBatch (mbSlotVa b j) 16 b = (.ok l, b) →
      (bitOf (ofBytes l) 61 = false ∨ bitOf (ofBytes l) 62 = false → mbScanSlot s.env j b = b) ∧
      (bitOf (ofBytes l) 61 = true → bitOf (ofBytes l) 62 = true →
        vaWrite s.env (trSquad b) whoBatch (mbSlotVa b j) (leBytes 0 16) b = (.ok w, c) →
        (mbScanSlot s.env j b).mem = c.mem ∧ (mbScanSlot s.env j b).field oMbStat 32 16 =
          (c.field oMbStat 32 16 + bitsOf (ofBytes l) 64 16) % 2 ^ 16)) ∧
    (∀ l, b.dev.tr.upd = none → b.flag oUpdStat 1 = false → b.retired = false →
      vaRead s.env (trSquad b) whoUpdate (updSlotVa b (updHead b)) 128 b = (.ok l, b) →
      let w := ofBytes l
      let r : UpdRun := { slot := updHead b, rcd := w, key := b.csr (oTr 0), started := false, ran := false, status := 0 }
      let found : Body := { b with dev.tr.upd := some r }
      let looked := if bitOf w 1023 = true then s.withBody (found.setField oUpdStat 2 1
        (b2n (bitOf w 8 && !kickDue s.env.now (bitsOf w 32 32)))) else s
      exec .updPoll s = .next looked ∧ (mayWrite ag (oTr 0xC8) = true → exec (.updKick ag) s = .next looked)) ∧
    (b.dev.tr.upd ≠ none ∨ b.flag oUpdStat 1 = true ∨ b.retired = true → exec .updPoll s = .next s) ∧
    (mayWrite ag (oTr 0xC8) = true → b.dev.tr.upd ≠ none ∨ b.retired = true →
      exec (.updResume ag) s = .next (s.withBody (b.setField oUpdStat 1 1 0))) ∧
    (∀ u, b.dev.tr.upd = some u → u.started = false → b.retired = false →
      let koen := u.field 8 1 = 1
      let k := u.field 32 32
      let st := if u.bad b then 1 else if b.flag (oTr 0x10) 0 = false ∧ (u.op ≤ 7 ∨ u.op = 9) then 5 else 0
      (koen → kickDue s.env.now k = false → exec .updateStart s = .next s) ∧
      (¬ koen ∨ kickDue s.env.now k = true → ∃ t, exec .updateStart s = .next t ∧ t.body.mem = b.mem ∧
        t.body.flag oUpdStat 0 = true ∧ t.body.dev.tr.upd =
          some { u with started := true, ran := decide (st ≠ 0), status := st, key := b.csr (oTr 0) })) ∧
    (∀ u x, b.dev.tr.upd = some u → u.started = true → u.ran = false →
      (u.op, x) ∈ [(0, Instr.sgd), (1, .momentum), (2, .nesterov), (3, .adagrad), (4, .rmsprop), (5, .adam), (6, .adamw),
        (7, .lambApply), (8, .normsq), (9, .lambNorm), (10, .convert)] →
      updWaits u b = false → digWaits b u.digRuns = false → armedClass b 6 = false →
      (∀ k, k < 12 → armedAt b (detOf 7 k) = false ∧ stackLost b k = false) → b.mem.wf = true →
      let groups := List.range (u.nelem / u.perLine)
      let lines := groups.flatMap fun g => (u.arrays g).flatMap fun r => r.lines.map fun va => (r.write, r.read, va)
      let clean := (∀ y ∈ lines, ∃ pa, updReach b u.ctx y.2.2 y.1 = .at_ pa ∧ (y.2.1 = true → pa / 64 * 64 ∉ b.dev.poison)) ∧
        (updUsesR u.op = true → ∃ pa, updReach b u.ctx u.rva (u.op != 7) = .at_ pa ∧ (u.op = 7 → pa / 64 * 64 ∉ b.dev.poison))
      ∃ t st, exec x s = .next t ∧ t.body.dev.tr.upd = some { u with ran := true, status := st } ∧
        (clean → st = 0) ∧
        ∀ a, (∀ y ∈ lines, y.1 = true → ∀ pa, updReach b u.ctx y.2.2 true = .at_ pa → a < pa ∨ pa + 64 ≤ a) →
          (u.op = 8 ∨ u.op = 9 → ∀ pa, updReach b u.ctx u.rva true = .at_ pa → a < pa ∨ pa + 16 ≤ a) →
          t.body.mem.get a = b.mem.get a) ∧
    (∀ u pw pg j, b.dev.tr.upd = some u → u.started = true → u.ran = false → u.op = 0 → u.wfmt = 1 → u.nelem = 16 →
      digWaits b u.digRuns = false → armedClass b 6 = false →
      (∀ k, k < 12 → armedAt b (detOf 7 k) = false ∧ stackLost b k = false) → b.mem.wf = true →
      updReach b u.ctx (u.field 128 48) true = .at_ pw → updReach b u.ctx (u.field 192 48) false = .at_ pg →
      pw / 64 * 64 ∉ b.dev.poison → pg / 64 * 64 ∉ b.dev.poison → j < 16 →
      let wide := fun (x : Nat) => (convertElem 1 0 x .rne).1
      let w := wide (b.mem.num (pw + 4 * j) 4)
      let g := (fpMul 0 (wide (b.mem.num (pg + 4 * j) 4)) (wide (u.field 736 32)) .rne).1
      let d := (fpFma 0 (wide (u.field 608 32)) w g .rne).1
      let y := (fpFma 0 (fpNeg 0 (wide (u.field 576 32))) d w .rne).1
      ∃ t, exec .sgd s = .next t ∧ t.body.mem.num (pw + 4 * j) 4 = (convertElem 0 1 y
        (elemSel (u.field 14 1 == 1) u.key 3 u.tid (u.field 512 40 + j) 0 u.step)).1 % 2 ^ 32) ∧
    (∀ u r c, b.dev.tr.upd = some u → u.ran = true → r ≠ .stall →
      vaWrite s.env (trSquad b) whoUpdate (updSlotVa b u.slot + 120)
        (leBytes (putBits (putBits u.rcd 960 8 u.status) 1023 1 0 >>> 960) 8) b = (r, c) →
      ∃ t, exec .updateComplete s = .next t ∧ t.body.mem = c.mem ∧ t.body.dev.tr.upd = none ∧
        t.body.field oUpdStat 16 12 = (u.slot + 1) % 2 ^ c.field (oTr 0xC0) 60 4 % 2 ^ 12 ∧
        t.body.flag oUpdStat 1 = (c.flag oUpdStat 1 || decide (u.status ≠ 0))) ∧
    (b.dev.tr.upd = none → exec .updateStart s = .next s ∧ exec .updateComplete s = .next s) ∧
    (mayWrite ag (oTr 0x10) = true →
      (updIdle b = true → ∃ t, exec (.trHomeWrite ag v) s = .next t ∧ t.body.flag (oTr 0x10) 0 = bitOf v.toNat 0) ∧
      (updIdle b = false → exec (.trHomeWrite ag v) s = .next (refuses (oTr 0x10)))) ∧
    (mayWrite ag (oTr 8) = true →
      let newer := 0 < serialDiff (bitsOf v.toNat 0 16) b.gen 16
      (newer → ∃ t, exec (.trGenWrite ag v) s = .next t ∧ t.body.gen = bitsOf v.toNat 0 16) ∧
      (¬ newer → exec (.trGenWrite ag v) s = .next (refuses (oTr 8))))

-- Layer digests, injection and squads.

/-- R424 to R430, R459, R473: layer digests and injection. FLUSH and a change of a selection emit what the affected slots
hold, the earlier step first, and close them; a buffered record goes to the next free ring slot; DIGEST_STALE marks an
overdue recompute; injection hands the record at the capture ring's tail to its squad and moves the tail. Choices of the
model in it: log entries 9, 23, 36. -/
def Obligations.DigestsAndInjection : Prop :=
  ∀ (s : State) (ag : Agent) (off : Nat) (v : Word64),
    let b := s.body
    let refuses := fun (o : Nat) => s.withBody (csrError s.env ag o b)
    let records := fun (n : Nat) =>
      let d := b.digSlot n
      (if d.prev.live then [digRecord b n d.prev true d.stale] else []) ++
        (if d.cur.live then [digRecord b n d.cur true (d.stale && !d.prev.live)] else [])
    (mayWrite ag (oDg 8) = true → ∃ t, exec (.digestFlush ag) s = .next t ∧ t.body.mem = b.mem ∧
      (∀ n, n < 64 → t.body.digSlot n = DigSlot.initial) ∧
      t.body.dev.tr.digBuf = b.dev.tr.digBuf ++ (List.range 64).flatMap records) ∧
    (mayWrite ag (oDg 8) = false → exec (.digestFlush ag) s = .next (refuses (oDg 8))) ∧
    (b.dev.tr.digBuf = [] → exec .digestRecordWrite s = .next s) ∧
    (∀ r l old w c, b.dev.tr.digBuf = r :: l →
      let va := bitsOf (b.csr (oDg 0x20)) 6 42 * 64 + 64 * (b.dev.tr.digHead % 2 ^ bitsOf (b.csr (oDg 0x20)) 60 4)
      vaRead s.env (trSquad b) whoDigest va 64 b = (.ok old, b) →
      (bitOf (ofBytes old) 511 = true → exec .digestRecordWrite s = .next s) ∧
      (bitOf (ofBytes old) 511 = false → vaWrite s.env (trSquad b) whoDigest va (leBytes r 64) b = (.ok w, c) →
        ∃ t, exec .digestRecordWrite s = .next t ∧ t.body.mem = c.mem ∧ t.body.dev.tr.digBuf = l ∧
          t.body.dev.tr.digHead = c.dev.tr.digHead + 1)) ∧
    (digAffected off = [] → exec (.dgSelectWrite ag off v) s = .next s) ∧
    (∀ r, digAffected off ≠ [] → regSpec off = some r →
      let w := r.apply (b.csr off) v.toNat
      (mayWrite ag off = true → encodingOk off w = true → ∃ t, exec (.dgSelectWrite ag off v) s = .next t ∧
        t.body.csr off = w ∧ t.body.mem = b.mem ∧ (∀ n ∈ digAffected off, t.body.digSlot n = DigSlot.initial) ∧
        (∀ n, n ∉ digAffected off → t.body.digSlot n = b.digSlot n) ∧
        t.body.dev.tr.digBuf = b.dev.tr.digBuf ++ (digAffected off).flatMap records) ∧
      (mayWrite ag off = false ∨ encodingOk off w = false → exec (.dgSelectWrite ag off v) s = .next (refuses off))) ∧
    (exec .digestStale s = .next (if b.flag oMpStat 9 then s.withBody (b.setField oMpStat 10 1 1) else s)) ∧
    (b.flag (oDg 8) 1 = false ∨ capTail b = capHead b → exec .injectFeed s = .next s) ∧
    (∀ h p, b.flag (oDg 8) 1 = true → capTail b ≠ capHead b →
      vaRead s.env (trSquad b) whoCapture (capVa b (capTail b)) 64 b = (.ok h, b) →
      let w := ofBytes h
      (bitOf w 152 = true → exec .injectFeed s = .next (s.withBody (b.setField (oDg 0x48) 6 24 0))) ∧
      (bitOf w 152 = false →
        vaRead s.env (trSquad b) whoCapture (capVa b (capTail b + 64)) (bitsOf w 136 16) b = (.ok p, b) →
        let f : RxFrame := { squad := bitsOf w 132 3, rule := bitsOf w 128 4, time := s.env.now, bytes := p }
        let c := b.setField (oDg 0x48) 6 24 ((capTail b + 64 + pad64 (bitsOf w 136 16)) % capSize b / 64)
        exec .injectFeed s = .next (s.withBody (handOver s.env f c)) ∧
        let r := b.csr (oSq f.squad 0x18)
        let n := bitsOf r 0 9
        let at_ := bitsOf r 32 21 + 0x4000 * (b.dev.sq.rxNext.get 0 f.squad % 2 ^ bitsOf r 24 3)
        b.flag (oSq f.squad 0) 61 = false → b.holdOf n = false → p.length ≤ 16320 →
        wakingIn (b.site (b.siteOf n)) (at_, 64 + p.length) = false → (∀ x ∈ b.dev.sq.rxWait, x.squad ≠ f.squad) →
        armedAt b (detOf 1 (b.siteOf n)) = false →
        (b.site (b.siteOf n)).servesAll 5 [(at_, 64 + p.length)] = true →
        bitOf (b.mem.num (siteBase (b.siteOf n) + at_) 64) 511 = false →
        (handOver s.env f c).mem = b.mem.write (siteBase (b.siteOf n) + at_) (leBytes (ingestHeader f) 64 ++ p)))

/-- R468, R472, R475 to R479, R481: squads. SQ_CFG is refused where it breaks the rules over all squads, or moves the
class or function of a squad that tiles name; a call-up starts, waits for a held tile, or reports a bad range; it is
CALLED when every tile has yielded, RETURNING by RETURN, and IDLE when the return is complete; a window's shortfall is
counted, kept and reported. Choices of the model in it: log entries 8, 9, 35. -/
def Obligations.SquadCommands : Prop :=
  ∀ (s : State) (ag : Agent) (q : Nat) (v : Word64),
    let b := s.body
    let st := b.callState q
    let refuses := fun (o : Nat) => s.withBody (csrError s.env ag o b)
    let bump := fun own k => sqBump own ((callTiles b q).map fun n => (n, 8 + k)) b
    (8 ≤ q → exec (.sqCfgWrite ag q v) s = .next s ∧ exec (.callup ag q) s = .next s ∧ exec (.callupCalled q) s = .next s ∧
      exec (.callReturn ag q) s = .next s ∧ exec (.callupReturned q) s = .next s ∧
      ∀ x y z, exec (.deficitWindowEnd q x y z) s = .next s) ∧
    (∀ r, q < 8 → regSpec (oSq q 0) = some r →
      let w := r.apply (b.csr (oSq q 0)) v.toNat
      let frozen := squadNamed b q = true ∧ (bitsOf w 62 1 ≠ b.field (oSq q 0) 62 1 ∨ bitsOf w 52 5 ≠ b.field (oSq q 0) 52 5)
      let ok := mayWrite ag (oSq q 0) = true ∧ squadsOk b q w = true ∧ ¬ frozen ∧ encodingOk (oSq q 0) w = true
      (ok → ∃ t, exec (.sqCfgWrite ag q v) s = .next t ∧ t.body.csr (oSq q 0) = w) ∧
      (¬ ok → exec (.sqCfgWrite ag q v) s = .next (refuses (oSq q 0)))) ∧
    (q < 8 → mayCommand b ag q = false → exec (.callup ag q) s = .next (refuses (oSq q 0x30))) ∧
    (q < 8 → mayCommand b ag q = true → st ≠ 0 ∨ b.squadValid q = false ∨ b.squadDeadline q = false →
      exec (.callup ag q) s = .next s) ∧
    (q < 8 → mayCommand b ag q = true → st = 0 → b.squadValid q = true → b.squadDeadline q = true →
      let wrong := ∃ n ∈ callTiles b q, b.squadOf n ≠ some (callDonor b q)
      let held := ∃ n ∈ callTiles b q, b.holdOf n = true
      (wrong → ∃ t, exec (.callup ag q) s = .next t ∧ t.body.flag (oSqStat q) 7 = true ∧ t.body.callState q = 0 ∧
        t.body.mem = b.mem) ∧
      (¬ wrong → held → ∃ t, exec (.callup ag q) s = .next t ∧ q ∈ t.body.dev.sq.waits ∧ t.body.callState q = 0 ∧
        t.body.mem = b.mem) ∧
      (¬ wrong → ¬ held → ∃ t, exec (.callup ag q) s = .next t ∧ t.body.callState q = 1 ∧
        ∀ n ∈ callTiles b q, (t.core (b.siteOf n)).preemptSquad = q ∧ (t.body.site (b.siteOf n)).yielded = false)) ∧
    (q < 8 → st ≠ 1 ∨ (∃ x ∈ callSites b q, (b.site x).yielded = false ∨ (b.site x).core.stopped = false) ∨
      bump (fun _ => false) q = none → exec (.callupCalled q) s = .next s) ∧
    (∀ c, q < 8 → st = 1 → (∀ x ∈ callSites b q, (b.site x).yielded = true ∧ (b.site x).core.stopped = true) →
      bump (fun _ => false) q = some c → ∃ t, exec (.callupCalled q) s = .next t ∧ t.body.callState q = 2 ∧
      ∀ n, callTiles c q = [n] →
        t.core (c.siteOf n) = CoreSt.initial.startAt (c.field (oSq q 0x10) 18 19)) ∧
    (q < 8 → mayWrite ag (oSq q 0x30) = false → exec (.callReturn ag q) s = .next (refuses (oSq q 0x30))) ∧
    (q < 8 → mayWrite ag (oSq q 0x30) = true → (st ≠ 2 → exec (.callReturn ag q) s = .next s) ∧
      (st = 2 → ∃ t, exec (.callReturn ag q) s = .next t ∧ t.body.callState q = 3)) ∧
    (q < 8 → returnReady b q = false → exec (.callupReturned q) s = .next s) ∧
    (q < 8 → returnReady b q = true → called b q = true → bump (toRange b q) (callDonor b q) = none →
      exec (.callupReturned q) s = .next s) ∧
    (q < 8 → returnReady b q = true → called b q = false ∨ bump (toRange b q) (callDonor b q) ≠ none →
      ∃ t, exec (.callupReturned q) s = .next t ∧ t.body.callState q = 0) ∧
    (∀ hbm fab repaid, q < 8 → b.squadValid q = true → b.squadDeadline q = false →
      let late := q ∈ b.dev.sq.carried ∧ repaid = false
      let mib := fun (n : Nat) => min ((n + 2 ^ 20 - 1) / 2 ^ 20) (2 ^ 24 - 1)
      ∃ t, exec (.deficitWindowEnd q hbm fab repaid) s = .next t ∧ t.body.mem = b.mem ∧
        t.body.field (oSq q 0x20) 48 16 = (if late then min (b.field (oSq q 0x20) 48 16 + 1) (2 ^ 16 - 1)
          else b.field (oSq q 0x20) 48 16) ∧
        (hbm = 0 ∧ fab = 0 → q ∉ t.body.dev.sq.carried) ∧
        (hbm ≠ 0 ∨ fab ≠ 0 → q ∈ t.body.dev.sq.carried ∧ t.body.flag (oSqStat q) 5 = true ∧
          t.body.field (oSq q 0x20) 0 24 = mib hbm ∧ t.body.field (oSq q 0x20) 24 24 = mib fab)) ∧
    (∀ hbm fab repaid, b.squadValid q = false ∨ b.squadDeadline q = true →
      exec (.deficitWindowEnd q hbm fab repaid) s = .next s)

-- The management processor.

/-- R448 to R456, R458 to R462: referees, whistles and agreement, each row on the oldest message of its kind. A whistle or
rejoin that is not authentic, old or known does nothing; the next in order is applied (the device named is dead, or alive
again; a device that is named itself retires), a later one is held. The acting referee whistles a device on a RETIRE or on
enough SUSPECTs, and reports where there is not enough; a referee takes over after its wait. A device reports another once in
100 ms. An agreement sweep starts with a newer number, folds what it receives, and waits for a current last digest; T4 shed
defers sweeps, also one that is asked for, and recomputes. Choices of the model in it: log entries 8, 9, 27, 44. -/
def Obligations.RefereesAndAgreement : Prop :=
  ∀ (s : State) (ag : Agent) (m : Msg) (c : Body) (spare : BitVec 16),
    let b := s.body
    let e := s.env
    let role := mpRole c
    let judge := role ≠ 3 ∧ role = mpActing c
    let sane := refCoord b (mpRole b) = b.coord ∧ b.dev.mp.heldSeq = []
    let whistled := fun (t : State) (x : Nat) => lastWseq t.body = (lastWseq b + 1) % 2 ^ 32 ∧ t.body.isDead x = true
    (∀ x k, (x, k) ∈ [(Instr.whistle, 1), (.rejoin, 5)] → takeMsg k b = some (m, c) →
      let d := serialDiff m.wseq (lastWseq c) 32
      let fresh := msgAuthentic c m = true ∧ 0 < d ∧ ∀ y ∈ c.dev.mp.heldSeq, y.bytes ≠ m.bytes
      (¬ fresh → exec x s = .next (s.afterLinks c)) ∧
      (fresh → d ≠ 1 → ∃ t, exec x s = .next t ∧ m ∈ t.body.dev.mp.heldSeq ∧ lastWseq t.body = lastWseq c) ∧
      (fresh → d = 1 → c.dev.mp.heldSeq = [] → ∃ t, exec x s = .next t ∧ lastWseq t.body = m.wseq ∧
        (k = 5 → t.body.isDead m.coord = false) ∧ (k = 1 → m.coord = b.coord → t.body.retired = true) ∧
        (k = 1 → m.coord ≠ b.coord → t.body.isDead m.coord = true))) ∧
    (∀ x k, (x, k) ∈ [(Instr.whistle, 1), (.rejoin, 5), (.retire spare, 2), (.suspect spare, 3)] → takeMsg k b = none →
      exec x s = .next (s.afterLinks b)) ∧
    (takeMsg 4 b = none → exec .heartbeat s = .next s) ∧ (takeMsg 6 b = none → exec .agreeStart s = .next s) ∧
    (takeMsg 7 b = none → exec .agree s = .next s) ∧
    (takeMsg 2 b = some (m, c) →
      let x := m.num 2 2
      let d := addRetire x c
      (role = 3 → exec (.retire spare) s = .next (s.afterLinks c)) ∧
      (role ≠ 3 → ¬ judge ∨ c.isDead x = true → exec (.retire spare) s = .next (s.afterLinks d)) ∧
      (judge → c.isDead x = false → sane → x ≠ b.coord → ∃ t, exec (.retire spare) s = .next t ∧ whistled t x)) ∧
    (takeMsg 3 b = some (m, c) →
      let x := m.num 16 2
      let d := addEvidence x (m.num 2 2) c
      (role = 3 → exec (.suspect spare) s = .next (s.afterLinks c)) ∧
      (role ≠ 3 → ¬ judge ∨ c.isDead x = true → exec (.suspect spare) s = .next (s.afterLinks d)) ∧
      (judge → c.isDead x = false → evidence d x = false → exec (.suspect spare) s = .next (s.afterLinks (d.raisePf 1))) ∧
      (judge → c.isDead x = false → evidence d x = true → sane → x ≠ b.coord →
        ∃ t, exec (.suspect spare) s = .next t ∧ whistled t x)) ∧
    (∀ p, 8 ≤ p ∨ portEvidence b p = none ∨ toldOf b (b.neighbour p) = true → exec (.suspectSend p) s = .next s) ∧
    (∀ p v, p < 8 → portEvidence b p = some v → toldOf b (b.neighbour p) = false →
      let x := b.neighbour p
      let told := b.dev.mp.told.filter (fun t => t.1.toNat != x) ++ [(BitVec.ofNat 16 x, b.dev.ticks)]
      exec (.suspectSend p) s = .next (s.withBody (overList (referees b) (fun r =>
        sendMsg e r (mpMessage e b 3 [(16, leBytes x 2), (18, leBytes v 1)])) { b with dev.mp.told := told }))) ∧
    (mpRole b = 3 → exec .heartbeatSend s = .next s) ∧
    (mpRole b ≠ 3 → exec .heartbeatSend s = .next (s.withBody (overList ((referees b).filter (· != b.coord)) (fun r =>
      sendMsg e r (mpMessage e b 4 [(16, leBytes (lastWseq b) 4)])) b))) ∧
    (takeMsg 4 b = some (m, c) → exec .heartbeat s = .next (s.withBody
      (if role ≠ 3 ∧ m.num 14 1 < role then { c with dev.mp.hbTick := c.dev.ticks } else c))) ∧
    (∀ members, let r := mpRole b
      let x := refCoord b (mpActing b)
      let due := r ≠ 0 ∧ r ≠ 3 ∧ r ≠ mpActing b ∧ b.dev.mp.hbTick + 50000000 * r ≤ b.dev.ticks ∧ evidence b x = true
      (¬ due → exec (.refereeTakeover members) s = .next (s.afterLinks b)) ∧
      (due → sane → x ≠ b.coord → ∃ t, exec (.refereeTakeover members) s = .next t ∧ whistled t x ∧
        mpActing t.body = r ∧ mpTerm t.body = (mpTerm b + 1) % 2 ^ 16)) ∧
    (shed b 4 = true → exec .agreeStart s = .next s ∧ exec .agree s = .next s ∧ exec .cfgDigestRecompute s = .next s) ∧
    (shed b 4 = false → takeMsg 6 b = some (m, c) →
      let k := m.num 16 4
      let newer := 0 < serialDiff k (c.field oMpAgree 32 32) 32
      (¬ newer → exec .agreeStart s = .next (s.withBody c)) ∧
      (newer → ∃ t, exec .agreeStart s = .next t ∧ t.body.field oMpAgree 32 32 = k ∧
        (c.flag oMpStat 10 = true → t.body.dev.mp.agreeWait = true ∧ t.body.field oMpAgree 0 2 = 1) ∧
        (c.flag oMpStat 10 = false → (∀ a, a < 4 → c.axisSize a < 2) →
          t.body.field oMpAgree 0 2 = 2 ∧ t.body.flag oMpAgree 3 = true))) ∧
    (shed b 4 = false → takeMsg 7 b = some (m, c) →
      let d := serialDiff (m.num 16 4) (c.field oMpAgree 32 32) 32
      let runs := c.field oMpAgree 0 2 = 1
      let kept : Body := { c with dev.mp.agreePend := c.dev.mp.agreePend ++ [m] }
      (d < 0 ∨ (d = 0 ∧ ¬ runs) → exec .agree s = .next (s.withBody c)) ∧
      (0 < d ∨ (d = 0 ∧ runs) → ¬ runs ∨ c.dev.mp.agreeWait = true ∨
        (∀ y ∈ kept.dev.mp.agreePend, agreeExpected c y = false) → exec .agree s = .next (s.withBody kept)) ∧
      (runs → c.dev.mp.agreeWait = false → c.dev.mp.agreePend = [] → agreeExpected c m = true →
        ∃ t, exec .agree s = .next t ∧ t.body.dev.mp.agreeMin = min c.dev.mp.agreeMin (m.num 24 32) ∧
          t.body.dev.mp.agreeMax = max c.dev.mp.agreeMax (m.num 56 32))) ∧
    (∀ p, isActing b = true → shed b 4 = false → ∃ t, exec (.agreeWriteStart (.host p 0)) s = .next t ∧
      t.body.field oMpAgree 32 32 = (b.field oMpAgree 32 32 + 1) % 2 ^ 32) ∧
    (∀ p, isActing b = true → shed b 4 = true →
      exec (.agreeWriteStart (.host p 0)) s = .next (s.withBody { b with dev.mp.agreeAsked := true })) ∧
    (isActing b = false ∨ (∀ p, ag ≠ .host p 0) →
      exec (.agreeWriteStart ag) s = .next (s.withBody (csrError e ag oMpAgree b))) ∧
    (shed b 4 = false → ∃ t, exec .cfgDigestRecompute s = .next t ∧ t.body.flag oMpStat 9 = false ∧
      lastDigest t.body = lastDigestOf e b % 2 ^ 256)

-- Errors, load, power and heat.

/-- R434, R437, R438, R462 to R465, R508, R509, R515: the ERR block, the MP's own upkeep, power and heat. ERR_TAIL moves
over the records read; an injection is armed only where its mode is allowed and ERR_CTL lets it; a lane margin below 15
per cent is recorded. A load window that is the third above HI sheds the next tier, one that is the tenth below LO
restores the last; a watchdog that was not kicked resets the MP; an update checks the staged image, once T3 is not shed. The
10 ms average sets DUTY, the brake sets 4, a sensor that reaches Limit is recorded, and one that reaches Trip retires the device. Choices of
the model in it: log entries 8, 9, 10, 39, 48. -/
def Obligations.ErrorsPowerAndHeat : Prop :=
  ∀ (s : State) (ag : Agent) (v : Word64) (n k : Nat),
    let b := s.body
    let e := s.env
    let refuses := fun (o : Nat) => s.withBody (csrError e ag o b)
    let used := b.field (oErr 0) 9 10
    let head := b.field (oErr 0) 0 9
    let w := v.toNat
    let read := if w % 512 = head then used else (w % 512 + 512 - b.field (oErr 8) 0 9) % 512
    (mayWrite ag (oErr 8) = true → read ≤ used → ∃ t, exec (.errTailWrite ag v) s = .next t ∧
      t.body.field (oErr 8) 0 9 = w % 512 ∧ t.body.field (oErr 0) 9 10 = used - read ∧ t.body.field (oErr 0) 0 9 = head) ∧
    (mayWrite ag (oErr 8) = false ∨ used < read → exec (.errTailWrite ag v) s = .next (refuses (oErr 8))) ∧
    (let arm := bitOf w 40 = true
     let ok := mayWrite ag (oErr 0x18) = true ∧ b.flag (oErr 0x20) 8 = false ∧ encodingOk (oErr 0x18) w = true ∧
       (arm → b.flag (oErr 0x10) 0 = true ∧ injAllowed (bitsOf w 24 3) (bitsOf w 12 4) = true)
     (ok → ∃ t, exec (.errInjArm ag v) s = .next t ∧ t.body.csr (oErr 0x18) = bitsOf w 0 27 + bitsOf w 32 8 * 2 ^ 32 ∧
       t.body.csr (oErr 0x20) = (if arm then 2 ^ 8 + bitsOf w 32 8 else b.csr (oErr 0x20))) ∧
     (¬ ok → exec (.errInjArm ag v) s = .next (refuses (oErr 0x18)))) ∧
    (∀ pct, n < 12 → injected b (detOf 11 n) k = none → exec (.eyeMarginCheck n k pct) s = .next (if pct < 15 then
      s.withBody (recordErr e { kind := 0x0D, sev := 0, det := detOf 11 n, unit := k, addr := k } b) else s)) ∧
    (∀ pct, 12 ≤ n → exec (.eyeMarginCheck n k pct) s = .next s) ∧
    (∀ c0 c1 c2 c3 : BitVec 8, armedAt b (detOf 14 0) = false → b.dev.mp.updAsked = false →
      let avg := (c1.toNat + c2.toNat + c3.toNat) / 3
      let hot := b.field oMpShed 8 8 < avg
      let cold := avg < b.field oMpShed 0 8
      ∃ t, exec (.loadWindow c0 c1 c2 c3) s = .next t ∧ t.body.field oMpLoad 32 8 = avg ∧
        t.body.field oMpLoad 0 8 = c0.toNat ∧ t.body.field oMpLoad 8 8 = c1.toNat ∧ t.body.field oMpLoad 16 8 = c2.toNat ∧
        t.body.field oMpLoad 24 8 = c3.toNat ∧
        (¬ hot → ¬ cold → t.body.dev.mp.hiRun = 0 ∧ t.body.dev.mp.loRun = 0) ∧
        (hot → b.dev.mp.hiRun < 2 → t.body.dev.mp.hiRun = b.dev.mp.hiRun + 1 ∧
          (¬ cold → ∀ i, shed t.body i = shed b i)) ∧
        (hot → b.dev.mp.hiRun = 2 → t.body.dev.mp.hiRun = 0 ∧
          ∀ i, 3 ≤ i → i ≤ 6 → (∀ j, i < j → j ≤ 6 → shed b j = true) → shed t.body i = true) ∧
        (cold → ¬ hot → b.dev.mp.loRun = 9 → t.body.dev.mp.loRun = 0 ∧
          ∀ i, 3 ≤ i → i ≤ 6 → (∀ j, 3 ≤ j → j < i → shed b j = false) → shed t.body i = false)) ∧
    (n < 4 → armedAt b (detOf 14 0) = false → exec (.watchdogKick n) s = .next (s.withBody
      { b with dev.mp.kicks := b.dev.mp.kicks ||| BitVec.ofNat 4 (2 ^ n) })) ∧
    (4 ≤ n → exec (.watchdogKick n) s = .next s ∧ exec (.watchdogExpiry n) s = .next s) ∧
    (n < 4 → armedAt b (detOf 13 0) = false →
      (bitOf b.dev.mp.kicks.toNat n = true → ∃ t, exec (.watchdogExpiry n) s = .next t ∧ t.body.mem = b.mem ∧
        bitOf t.body.dev.mp.kicks.toNat n = false ∧ ∀ o, t.body.csr o = b.csr o) ∧
      (bitOf b.dev.mp.kicks.toNat n = false → exec (.watchdogExpiry n) s = .next (s.withBody (mpCatchUp e (mpOnlyReset
        ((recordErr e { kind := 0x0C, sev := 1, det := detOf 13 0, unit := n } b).setField oMpWdt 8 1 1)))))) ∧
    (mayWrite ag oMpCtl = true → b.dev.mp.updAsked = false → ∃ t, exec (.mpReset ag) s = .next t ∧ t.body.dev.mp.kicks = 0 ∧ t.body.csr oMpLoad = 0 ∧
      t.body.field oMpStat 0 3 = (if b.retired then 4 else 1) ∧ (∀ i, 3 ≤ i → i ≤ 6 → shed t.body i = false) ∧
      t.body.field oMpWdt 16 16 = min (b.field oMpWdt 16 16 + 1) (2 ^ 16 - 1) ∧
      (b.dev.hi.cmds = [] → t.body.mem = b.mem)) ∧
    (mayWrite ag oMpCtl = false → exec (.mpReset ag) s = .next (refuses oMpCtl) ∧
      exec (.mpUpdate ag) s = .next (refuses oMpCtl)) ∧
    (mayWrite ag oMpCtl = true → shed b 3 = true → b.dev.mp.agreeAsked = false →
      exec (.mpUpdate ag) s = .next (s.withBody { b with dev.mp.updAsked := true })) ∧
    (∀ l c, mayWrite ag oMpCtl = true → shed b 3 = false → stagedImage e { b with dev.mp.updAsked := false } = (l, c) →
      let fits := Config.imageAccepted l = true ∧ (Config.imageRevision l).toNat = c.field (oDg 0) 0 32
      (fits → ∃ t, exec (.mpUpdate ag) s = .next t ∧ t.body.field oMpFw 0 32 = (Config.imageVersion l).toNat ∧
        t.body.dev.mp.kicks = 0) ∧
      (¬ fits → b.dev.mp.agreeAsked = false →
        exec (.mpUpdate ag) s = .next (s.withBody (c.setEvent oMpStat 11 1)))) ∧
    (let l := (b.dev.mp.powers ++ [n]).drop (b.dev.mp.powers.length + 1 - 10)
     let avg := min (l.sum / l.length) 0xFFFF
     let limit := b.field oDevPwr 0 16
     let duty := b.field oDevPwr 24 5
     let hot := b.flag oDevTherm 0 = true
     ∃ t, exec (.powerSample n) s = .next t ∧ t.body.field oDevPwr 32 16 = avg ∧ t.body.dev.mp.powers = l ∧
       t.body.mem = b.mem ∧
       (b.flag oDevTherm 2 = true → t.body.field oDevPwr 24 5 = 4) ∧
       (b.flag oDevTherm 2 = false → limit < avg ∨ hot → t.body.field oDevPwr 24 5 = max 4 (duty - 1)) ∧
       (b.flag oDevTherm 2 = false → avg ≤ limit → ¬ hot → t.body.field oDevPwr 24 5 =
         if 100 * avg < 95 * limit ∧ b.dev.mp.dutyRun = 9 then min 16 (duty + 1) else duty)) ∧
    (∃ t, exec (.pwrBrake true) s = .next t ∧ t.body.flag oDevTherm 2 = true ∧ t.body.field oDevPwr 24 5 = 4) ∧
    (exec (.pwrBrake false) s = .next (s.withBody (b.setField oDevTherm 2 1 0))) ∧
    (52 ≤ n → exec (.thermalLimit n k) s = .next s ∧ exec (.thermalTrip n k) s = .next s) ∧
    (n < 52 → armedAt b (detOf 12 n) = false →
      let lim := if n < 40 then 105 else 95
      ∃ t, exec (.thermalLimit n k) s = .next t ∧ t.body.dev.mp.temps.get 0 n = k ∧
        (k < lim ∨ lim ≤ b.dev.mp.temps.get 0 n → ∀ o, t.body.csr (oErr o) = b.csr (oErr o)) ∧
        (lim ≤ k → b.dev.mp.temps.get 0 n < lim → t.body.flag oDevTherm 1 = true ∧ t.body.dev.mp.irq =
          (b.dev.mp.irq || decide (used + 33 ≤ 512)))) ∧
    (n < 52 → let trip := if n < 40 then 115 else 105
      (k < trip → exec (.thermalTrip n k) s = .next s) ∧
      (trip ≤ k → ∃ t, exec (.thermalTrip n k) s = .next t ∧ t.body.retired = true ∧
        Sent.thermtrip ∈ t.body.dev.fab.wire))

-- Substitution and resets.

/-- R24 to R29, R441 to R445, R479: the substitution map and substitution. SUBST_MAP_WRITE sets or clears HOLD, or names
another site while HOLD is set, and is refused otherwise; DRAINED reads 1 when no request is left at the held site. A
substitution starts on a cause that is recorded for the tile's site, holds its tile (HOLD) and waits its turn; it goes through
DRAIN until nothing is left at the site; then it takes a bench site of the same column, if one is free, else the nearest
(PLACE), and restores the tile there (RESTORE), as soon as the step-state table can be read, with its banks ON where the table
holds no image; without a bench site it stays in PLACE; when it is done (DONE) HOLD is cleared and the next one begins. Choices
of the model in it: log entries 9, 37. -/
def Obligations.Substitution : Prop :=
  ∀ (s : State) (ag : Agent) (n : Nat) (v : Word64) (cause : SubstCause),
    let b := s.body
    let e := s.env
    let site := bitsOf v.toNat 0 9
    let hold := bitOf v.toNat 31
    let st := b.substState
    (384 ≤ n → exec (.substMapWrite ag n v) s = .next s ∧ exec (.substDrained n) s = .next s ∧
      exec (.substStart n cause) s = .next s) ∧
    (n < 384 →
      let moves := hold = true ∧ b.holdOf n = true ∧ siteAllowed b n site = true
      (hostOrMp ag = false ∨ (site ≠ b.siteOf n ∧ ¬ moves) →
        exec (.substMapWrite ag n v) s = .next (s.withBody (csrError e ag (oSubst n) b))) ∧
      (hostOrMp ag = true → site = b.siteOf n →
        (hold = b.holdOf n → exec (.substMapWrite ag n v) s = .next s) ∧
        (hold = true → b.holdOf n = false → ∃ t, exec (.substMapWrite ag n v) s = .next t ∧ t.body.holdOf n = true ∧
          t.body.flag (oSubst n) 30 = false ∧ t.body.mem = b.mem ∧ ∀ m, t.body.siteOf m = b.siteOf m) ∧
        (hold = false → b.holdOf n = true → ∃ t, exec (.substMapWrite ag n v) s = .next t ∧ t.body.holdOf n = false ∧
          t.body.siteOf n = b.siteOf n)) ∧
      (hostOrMp ag = true → site ≠ b.siteOf n → moves → ∃ t, exec (.substMapWrite ag n v) s = .next t ∧
        t.body.siteOf n = site ∧ (∀ m, m ≠ n → m < 384 → t.body.siteOf m = b.siteOf m) ∧ t.body.holdOf n = true ∧
        ∀ i, i < 32 → (((t.body.site site).bank i).pwr = .off ∧ ((t.body.site (b.siteOf n)).bank i).owner = 6))) ∧
    (n < 384 → (b.holdOf n = true → b.dev.held = [] → exec (.substDrained n) s =
        .next (s.withBody (b.setField (oSubst n) 30 1 1))) ∧
      (b.holdOf n = false → exec (.substDrained n) s = .next s)) ∧
    (n < 384 → causeReal b (b.siteOf n) cause = false → exec (.substStart n cause) s = .next s) ∧
    (causeReal b (b.siteOf n) cause = true ↔ match cause with
      | .doubleFault => (s.core (b.siteOf n)).double = true
      | .uncorrectable => b.siteOf n ∈ b.dev.mp.faulty
      | .correctedBurst k =>
        64 < ((b.dev.mp.ces.get [] (b.siteOf n * 32 + k % 32)).filter fun t => b.dev.ticks < t + second).length
      | .hostCommand => True) ∧
    (n < 384 → causeReal b (b.siteOf n) cause = true →
      (∀ x ∈ b.dev.mp.substs, x.1 ≠ n) → callOver b n = none →
      ∃ t, exec (.substStart n cause) s = .next t ∧ t.body.dev.mp.substs = b.dev.mp.substs ++ [(n, cause)] ∧
        t.body.holdOf n = true ∧ t.body.mem = b.mem ∧
        (b.dev.mp.substs = [] → t.body.substState = 1 ∧ t.body.field oMpSubst 9 9 = n)) ∧
    (n < 384 → causeReal b (b.siteOf n) cause = true → (∃ x ∈ b.dev.mp.substs, x.1 = n) →
      (st ≠ 4 ∨ b.field oMpSubst 9 9 ≠ n →
        exec (.substStart n cause) s = .next (s.withBody (causeTaken (b.siteOf n) b))) ∧
      (st = 4 → b.field oMpSubst 9 9 = n → ∃ t, exec (.substStart n cause) s = .next t ∧ t.body.substState = 3 ∧
        t.body.dev.benchBad = b.dev.benchBad ||| 2 ^ (b.siteOf n - 384))) ∧
    (b.dev.mp.substs = [] → exec .substPlaceRestore s = .next s ∧ exec .substDone s = .next s) ∧
    (∀ x l, b.dev.mp.substs = x :: l → x.1 < 384 →
      let old := b.siteOf x.1
      let drained := b.flag (oSubst x.1) 30 = true
      let ready := ((st = 1 ∨ st = 2) ∧ drained) ∨ st = 3
      let goesOn := fun (c : Body) => exec .substPlaceRestore s = .next (s.withBody (substRestore e x.1 c))
      (callOver b x.1 ≠ none ∨ st = 0 ∨ 4 < st ∨ (st = 4 ∧ b.dev.mp.restoring = false) →
        exec .substPlaceRestore s = .next s) ∧
      (callOver b x.1 = none → st = 1 ∨ st = 2 → ¬ drained →
        exec .substPlaceRestore s = .next (s.withBody (b.setField oMpSubst 18 3 2))) ∧
      (callOver b x.1 = none → st = 4 → b.dev.mp.restoring = true → goesOn b) ∧
      (ready → callOver b x.1 = none → chooseBench b old = none → ∃ t, exec .substPlaceRestore s = .next t ∧
        t.body.substState = 3 ∧ t.body.flag oMpSubst 23 = true ∧ (b.flag oMpCtl 2 = true → t.body.retired = true) ∧
        t.body.dev.mp.substs = b.dev.mp.substs) ∧
      (∀ new, ready → callOver b x.1 = none → chooseBench b old = some new →
        (∃ i, i < 24 ∧ new = 384 + i ∧ b.benchFree new = true ∧ bitOf (b.field oMpSubst 24 24) i = false ∧
          ∀ j, j < 24 → b.benchFree (384 + j) = true → bitOf (b.field oMpSubst 24 24) j = false →
            j / 3 = old % 24 / 3 → i / 3 = old % 24 / 3) ∧
        ∃ d, goesOn d ∧ d.substState = 4 ∧ d.siteOf x.1 = new ∧ d.field oMpSubst 0 9 = new ∧
          (old < 384 → d.dev.homes = b.dev.homes ++ [old]) ∧ ∀ i, i < 32 → ((d.site new).bank i).pwr = .off) ∧
      (∀ c, stepImage e x.1 b = (.wait, c) → substRestore e x.1 b = { c with dev.mp.restoring := true }) ∧
      (∀ c, stepImage e x.1 b = (.none_, c) → (substRestore e x.1 b).dev.mp.restoring = false ∧
        ∀ i, i < 32 → (((substRestore e x.1 b).site old).bank i).isOn = true) ∧
      (st ≠ 4 ∨ b.dev.mp.restoring = true → exec .substDone s = .next s) ∧
      (st = 4 → b.dev.mp.restoring = false → ∃ t, exec .substDone s = .next t ∧ t.body.dev.mp.substs = l ∧
        t.body.holdOf x.1 = false ∧ t.body.flag oMpSubst 22 = true ∧ t.body.substState = (if l = [] then 5 else 1)))

/-- R464, R479, R495 to R501, R504: the resets. A cold reset leaves the time base, memory and HBM at their reset values
and the host's memory alone; a warm reset is PERST# of a chosen port and keeps HBM and the time base, a device reset needs
its key; each boots the device, READY where alignment, flash and image are good; a device whose alignment failed takes only a
cold reset. A tile reset leaves the site's units at their reset values with its bank contents, once the launched operations of
its copy engine have left; a squad reset does so for every member; a port or a function loses its queues. Choices of the model
in it: log entries 9, 48, 65. -/
def Obligations.Resets : Prop :=
  ∀ (s : State) (ag : Agent) (v : Word64) (env : BootEnv) (p n : Nat),
    let b := s.body
    let w := v.toNat
    let site := bitsOf w 0 9
    let left := cpLeave s.env site b
    let settled := fun (x : Nat) => ∀ o ∈ (b.site x).cp.ops, o.toLeave = false
    let free := alignFailed b = false
    let dark := fun (t : State) (x : Nat) => t.core x = CoreSt.initial ∧ (settled x → (t.body.site x).cp = CpSt.initial) ∧
      (t.body.site x).mx = (Site.initial true).mx ∧ (t.body.site x).vx = (Site.initial true).vx ∧
      ∀ i, i < 32 → (((t.body.site x).bank i).owner = 6 ∧
        ((t.body.site x).bank i).pwr = ((b.site x).bank i).pwr)
    let refused := s.withBody (csrError s.env ag oDevRst b)
    let booted := fun (t : State) (k : BootKind) => t.time = (if k = .cold then TimeBase.initial else s.time) ∧
      t.fuse = s.fuse ∧ t.body.field oDevStat 4 2 = k.code ∧
      (∀ a, 0x4000_0000_0000 ≤ a → t.body.mem.get a = b.mem.get a) ∧ t.body.flash = b.flash ∧
      (env.alignFail ≠ none ∨ env.flashOk = false → t.body.field oDevStat 0 3 = 5) ∧
      (env.alignFail = none → env.flashOk = true → (k = .cold → bitsOf s.fuse.strap.toNat 7 2 ≠ 3) →
        acceptImage s.fuse (slotImage b 0) = true ∨ acceptImage s.fuse (slotImage b 1) = true →
        t.body.field oDevStat 0 3 = 4)
    (b.mem.wf = true → ∃ t, exec (.coldReset env) s = .next t ∧ booted t .cold ∧ (∀ a, a < hbmTop → t.body.mem.get a = 0) ∧
      t.body.csr oDevSerial = s.fuse.serial.toNat) ∧
    (perstChosen b p = false ∨ alignFailed b = true → exec (.warmReset p env) s = .next s) ∧
    (alignFailed b = true → exec (.deviceReset ag v env) s = .next s ∧ exec (.squadReset ag v) s = .next s ∧
      exec (.tileReset ag v) s = .next s) ∧
    (alignFailed b = true ↔ b.field oDevStat 0 3 = 5 ∧ b.field oDevStat 8 8 = 2) ∧
    (b.mem.wf = true → perstChosen b p = true → free → ∃ t, exec (.warmReset p env) s = .next t ∧ booted t .warm ∧
      (∀ a, a < hbmTop → t.body.mem.get a = b.mem.get a) ∧ t.body.csr oDevSerial = b.csr oDevSerial) ∧
    (free → bitOf w 31 = true →
      (b.mem.wf = true → isPf ag = true → bitsOf w 32 8 = 0xD5 → ∃ t, exec (.deviceReset ag v env) s = .next t ∧ booted t .device ∧
        ∀ a, a < hbmTop → t.body.mem.get a = b.mem.get a) ∧
      (isPf ag = false ∨ bitsOf w 32 8 ≠ 0xD5 → exec (.deviceReset ag v env) s = .next refused) ∧
      exec (.squadReset ag v) s = .next s ∧ exec (.tileReset ag v) s = .next s) ∧
    (bitOf w 31 = false → exec (.deviceReset ag v env) s = .next s) ∧
    (free → bitOf w 31 = false → bitOf w 30 = true → exec (.tileReset ag v) s = .next s ∧
      (hostOrMp ag = false → exec (.squadReset ag v) s = .next refused) ∧
      (hostOrMp ag = true → (∀ q, q < 8 → b.callState q = 0) →
        (∀ x ∈ b.squadTiles (bitsOf w 9 3), settled (b.siteOf x)) → ∃ t, exec (.squadReset ag v) s = .next t ∧
        t.body.mem = b.mem ∧ t.body.csr (oSqStat (bitsOf w 9 3)) = 0 ∧ t.body.csr (oSq (bitsOf w 9 3) 0x20) = 0 ∧
        ∀ x ∈ b.squadTiles (bitsOf w 9 3), dark t (b.siteOf x))) ∧
    (free → bitOf w 31 = false → bitOf w 30 = false → exec (.squadReset ag v) s = .next s ∧
      (bitOf w 29 = false → exec (.tileReset ag v) s = .next s) ∧
      (bitOf w 29 = true → hostOrMp ag = false ∨ 407 < site → exec (.tileReset ag v) s = .next refused) ∧
      (bitOf w 29 = true → hostOrMp ag = true → site ≤ 407 →
        (settled site → left = b) ∧ ∃ t, exec (.tileReset ag v) s = .next t ∧ t.body.mem = left.mem ∧ dark t site ∧
          (t.body.site site).cp = { CpSt.initial with
            ops := ((left.site site).cp.ops.filter CpOp.toLeave).map fun o => { o with orphan := true } } ∧
          ∀ x, x ≠ site → t.body.site x = left.site x)) ∧
    (2 ≤ p ∨ perstChosen b p = true → exec (.portPerst p) s = .next s) ∧
    (p < 2 → perstChosen b p = false → ∃ t, exec (.portPerst p) s = .next t ∧ t.body.csr (oHiPort p) = 0 ∧
      t.body.mem = b.mem ∧ (∀ x, t.body.site x = b.site x) ∧
      ∀ f k r, f ≤ 8 → k < queuePairs f → r < 4 → t.body.csr (oHiQ p f k r) = (csrReset (oHiQ p f k r)).toNat) ∧
    (2 ≤ p ∨ 8 < n → exec (.functionLevelReset p n) s = .next s) ∧
    (p < 2 → n = 0 ∨ (n ≤ 8 ∧ squadOfFn b p n = none) → ∃ t, exec (.functionLevelReset p n) s = .next t ∧
      t.body.mem = b.mem ∧ (∀ x, t.body.site x = b.site x) ∧
      (∀ k r, k < queuePairs n → r < 4 → t.body.csr (oHiQ p n k r) = (csrReset (oHiQ p n k r)).toNat) ∧
      ∀ c ∈ t.body.dev.hi.cmds, ¬ (c.port = p ∧ c.fn = n)) ∧
    (∀ q, p < 2 → 1 ≤ n → n ≤ 8 → squadOfFn b p n = some q →
      exec (.functionLevelReset p n) s = .next (s.withBody (squadReset s.env q (functionReset p n b)))) ∧
    (exec .trstAssert s = .next (s.withBody { b with dev.hi.tapStatus := 0, dev.hi.tapData := 0 }))

-- The host interface.

/-- R38, R462, R482, R486, R488 to R491, R495, R496, R505: the host's queues and ports. A doorbell moves its pointer, and
one out of its ring stops the queue; the MP serves the command at the head of an enabled queue, and where the completion
ring has room writes STATUS and RESULT there, moves the pointers and raises the queue's vector. BAR2 takes only a defined
base; a PCIe link comes up at a width and rate it supports; the HBM window reaches HBM at its base; the management link
answers, and a firmware update writes the other slot. Choices of the model in it: log entries 4, 5, 9, 38, 46. -/
def Obligations.HostQueuesAndPorts : Prop :=
  ∀ (s : State) (ag : Agent) (p f k : Nat) (spare : BitVec 16),
    let b := s.body
    let e := s.env
    let o := oHiQ p f k 3
    let size := sqSize b p f k
    let cq := cqSize b p f k
    let slot := cqTail b p f k % cq
    let entry := b.mem.num (windowBase p + b.field (oHiQ p f k 0) 12 33 * 4096 + 64 * (sqHead b p f k % size)) 64
    let arg := fun (i : Nat) => bitsOf entry (64 + 64 * i) 64
    let offered := queueServed b p f k = true ∧ b.cmd p f k = none ∧ sqHead b p f k ≠ sqTail b p f k ∧
      hostUp b p = true ∧ (slot + 1) % cq ≠ cqHead b p f k % cq
    let plain := bitsOf entry 8 8 = 0 ∧ bitsOf entry 32 32 = 0 ∧ bitsOf entry 256 256 = 0
    let told := fun (t : State) => t.body.field o 0 16 = (sqHead b p f k + 1) % size ∧
      t.body.field o 32 16 = (slot + 1) % cq ∧ t.body.flag o 16 = false ∧ t.body.cmd p f k = none ∧
      (p, f, 8 + k) ∈ t.body.dev.hi.msix
    let answers := fun (x : Instr) (st res : Nat) => ∃ t, exec x s = .next t ∧ told t ∧
      t.body.mem.num (windowBase p + b.field (oHiQ p f k 1) 12 33 * 4096 + 16 * slot) 16 =
        completion ((sqHead b p f k + 1) % size) (bitsOf entry 16 16) st res (!b.dev.hi.wrapped.contains (oHiQ p f k 1))
    let wh := Instr.cmdWhistle p f k spare
    let others := [(Instr.cmdNop p f k, 0), (.tileLoad p f k, 1), (.cmdSubst p f k, 2), (.cmdInfo p f k, 4),
      (.cmdDigest p f k, 5), (.cmdFlash p f k, 6)]
    let rows := (wh, 3) :: others
    (∀ tail v,
      let n := if tail then size else cq
      let at_ := sqTail b p f k
      let past := tail = true ∧ n ≤ (at_ + n - sqHead b p f k % n) % n + (v.toNat + n - at_ % n) % n
      let on := b.flag (oHiQ p f k 0) 0 = true
      let moved := s.withBody (b.setField (oHiQ p f k 2) (if tail then 0 else 32) 16 v.toNat)
      (queueOk p f k = false → exec (.queueDoorbell p f k tail v) s = .next s) ∧
      (queueOk p f k = true → ¬ on ∨ (v.toNat < n ∧ ¬ past) → exec (.queueDoorbell p f k tail v) s = .next moved) ∧
      (queueOk p f k = true → on → n ≤ v.toNat ∨ past →
        exec (.queueDoorbell p f k tail v) s = .next (s.withBody (b.setField o 17 1 1)))) ∧
    (∀ x ∈ rows, let still := if x.1 = wh then s.afterLinks b else s
      (queueServed b p f k = false → exec x.1 s = .next still) ∧
      (b.cmd p f k = none → sqHead b p f k = sqTail b p f k ∨ hostUp b p = false → exec x.1 s = .next still) ∧
      (b.cmd p f k = none → bitsOf entry 0 8 ≠ x.2 → x.2 ≠ 0 ∨ bitsOf entry 0 8 < 7 → exec x.1 s = .next still)) ∧
    (b.mem.wf = true → offered → ¬ plain → ∀ x ∈ rows, bitsOf entry 0 8 = x.2 → answers x.1 3 0) ∧
    (b.mem.wf = true → offered → plain →
      let opc := bitsOf entry 0 8
      let bare := bitsOf entry 64 192 = 0
      let load := bitsOf (arg 1) 9 55 = 0 ∧ bitsOf (arg 2) 53 11 = 0 ∧ bitsOf (arg 1) 0 9 < 384 ∧ arg 0 % 4096 = 0 ∧
        arg 0 + 256 + 0x10000 * ((List.range 32).countP (bitOf (bitsOf (arg 2) 0 32))) ≤ 2 ^ 45 ∧
        bitsOf (arg 2) 32 21 % 4 = 0
      let tile := bitsOf (arg 1) 0 9
      let mine := cmdTileOk b { port := p, fn := f, k := k, entry := entry } tile
      let busy := ∃ y ∈ b.dev.mp.substs, y.1 = tile
      let image := b.mem.bytes (windowBase p + arg 0) (bitsOf (arg 1) 0 32)
      let flash := bitsOf (arg 1) 32 32 = 0 ∧ arg 2 = 0 ∧ bitsOf (arg 1) 0 32 ≠ 0 ∧ bitsOf (arg 1) 0 32 ≤ 0x100_0000 ∧
        arg 0 + bitsOf (arg 1) 0 32 ≤ 2 ^ 45
      (7 ≤ opc → answers (.cmdNop p f k) 1 0) ∧
      (opc = 0 → answers (.cmdNop p f k) (if bare then 0 else 3) 0) ∧
      (opc = 4 → answers (.cmdInfo p f k) (if bare then 0 else 3)
        (if bare then rrev b + b.field oMpFw 0 32 * 2 ^ 32 else 0)) ∧
      (opc = 5 → f ≠ 0 → answers (.cmdDigest p f k) 2 0) ∧
      (opc = 5 → f = 0 → bare → b.flag oMpStat 9 = false → answers (.cmdDigest p f k) 0 (b.csr (oMpDigest 0))) ∧
      (opc = 5 → f = 0 → bare → b.flag oMpStat 9 = true →
        ∃ t, exec (.cmdDigest p f k) s = .next t ∧ t.body.cmd p f k ≠ none ∧ t.body.mem = b.mem) ∧
      (opc = 1 → ¬ load → answers (.tileLoad p f k) 3 0) ∧
      (opc = 1 → load → mine = false → answers (.tileLoad p f k) 2 0) ∧
      (opc = 1 → load → mine = true → (s.core (b.siteOf tile)).stopped = false ∨ busy → answers (.tileLoad p f k) 4 0) ∧
      (opc = 1 → load → mine = true → (s.core (b.siteOf tile)).stopped = true → ¬ busy →
        b.siteOf tile < 408 → b.tileOf (b.siteOf tile) ≠ none → (b.site (b.siteOf tile)).yielded = false →
        ∃ t, exec (.tileLoad p f k) s = .next t ∧ told t ∧ (t.core (b.siteOf tile)).stopped = false ∧
          (t.core (b.siteOf tile)).pc = BitVec.ofNat 21 (bitsOf (arg 2) 32 21)) ∧
      (opc = 2 → arg 0 = 0 → bitsOf (arg 1) 9 55 = 0 → arg 2 = 0 → tile < 384 → mine = true →
        (busy → answers (.cmdSubst p f k) 4 0) ∧
        (¬ busy → ∃ t, exec (.cmdSubst p f k) s = .next t ∧
          t.body.dev.mp.substs = b.dev.mp.substs ++ [(tile, .hostCommand)] ∧ t.body.cmd p f k ≠ none)) ∧
      (opc = 3 → f ≠ 0 → answers wh 2 0) ∧
      (opc = 3 → f = 0 → arg 0 = 0 → bitsOf (arg 1) 16 48 = 0 → arg 2 = 0 →
        (isActing b = false → answers wh 5 0) ∧
        (isActing b = true → refCoord b (mpRole b) = b.coord → b.dev.mp.heldSeq = [] → bitsOf (arg 1) 0 16 ≠ b.coord →
          ∃ t, exec wh s = .next t ∧ told t ∧ t.body.isDead (bitsOf (arg 1) 0 16) = true)) ∧
      (opc = 6 → f ≠ 0 → answers (.cmdFlash p f k) 2 0) ∧
      (opc = 6 → f = 0 → ¬ flash → answers (.cmdFlash p f k) 3 0) ∧
      (opc = 6 → f = 0 → flash → acceptImage s.fuse image = false → answers (.cmdFlash p f k) 7 0) ∧
      (opc = 6 → f = 0 → flash → acceptImage s.fuse image = true →
        answers (.cmdFlash p f k) 0 (1 - preferredSlot b))) ∧
    (∀ v : Word64, p < 2 →
      let w := (RegSpec.apply ((regSpec (oHiBar2 p)).getD {}) (b.csr (oHiBar2 p)) v.toNat)
      (mayWrite ag (oHiBar2 p) = true → bitsOf w 30 10 ≤ 704 →
        ∃ t, exec (.hiBar2Write ag p v) s = .next t ∧ t.body.field (oHiBar2 p) 30 10 = bitsOf v.toNat 30 10) ∧
      (mayWrite ag (oHiBar2 p) = false ∨ 704 < bitsOf w 30 10 →
        exec (.hiBar2Write ag p v) s = .next (s.withBody (csrError e ag (oHiBar2 p) b)))) ∧
    (2 ≤ p → exec (.pcieLinkDown p) s = .next s ∧ (∀ w r, exec (.pcieLinkUp p w r) s = .next s) ∧
      ∀ v, exec (.hiBar2Write ag p v) s = .next s) ∧
    (p < 2 → ∃ t, exec (.pcieLinkDown p) s = .next t ∧ hostUp t.body p = false ∧ t.body.mem = b.mem) ∧
    (∀ w r, p < 2 → let fits := w ∈ [4, 8, 16] ∧ r ∈ [5, 6, 7]
      (¬ fits → exec (.pcieLinkUp p w r) s = .next s) ∧
      (fits → ∃ t, exec (.pcieLinkUp p w r) s = .next t ∧ hostUp t.body p = true ∧ t.body.mem = b.mem ∧
        t.body.field (oHiPort p) 8 5 = w ∧ t.body.field (oHiPort p) 4 3 = r)) ∧
    (∀ off write bytes len, 2 ≤ p ∨ 2 ^ 36 ≤ off ∨ hostUp b p = false →
      exec (.hbmWindowAccess p off write bytes len) s = .next s) ∧
    (∀ off bytes len, p < 2 → off < 2 ^ 36 → hostUp b p = true → armedAt b (detOf 10 p) = false →
      armedClass b 6 = false → (∀ i, i < 12 → stackLost b i = false) →
      let pa := b.field (oHiBar2 p) 30 10 * 2 ^ 30 + off
      (pa < hbmTop → pa + bytes.length ≤ hbmTop →
        ∃ t, exec (.hbmWindowAccess p off true bytes len) s = .next t ∧ t.body.mem = b.mem.write pa bytes) ∧
      (pa < hbmTop → pa + len ≤ hbmTop → (∀ i, i < 12 → armedAt b (detOf 7 i) = false) → b.dev.poison = [] →
        exec (.hbmWindowAccess p off false bytes len) s = .next (s.withBody (b.answer 9 (b.mem.bytes pa len))))) ∧
    (∀ req, exec (.pldmRequest .mpState true req) s = .next (s.withBody (b.send (.pldm (Config.pldmBody 0 req)))) ∧
      exec (.pldmRequest .mpState false req) s = .next (s.withBody
        (b.send (.pldm (Config.pldmBody 3 (req ++ leBytes (b.field oMpStat 0 3) 1))))) ∧
      (shed b 3 = true → exec (.pldmRequest .fwUpdate false req) s = .next s) ∧
      (shed b 3 = false → acceptImage s.fuse req = true → b.flash.wf = true →
        ∃ t, exec (.pldmRequest .fwUpdate false req) s = .next t ∧ preferredSlot t.body = 1 - preferredSlot b))

/-- R3, R10, R13, R27, R32, R38, R215, R216, R319, R504: register access and the mesh. A CSR write that R10 does not
support or that names no register is an error; a write to a register with a row of its own does what that row does; a
plain register takes its RW fields; the TAP acts where it is enabled. A mesh request, and an access through a site's window,
reaches the memory it names, waits for a held tile or a bank that wakes, or fails with all ones; a read of TB_TIME by halves
is one value. Choices of the model in it: log entries 50, 51, 54, 56, 60. -/
def Obligations.RegisterAccessAndMesh : Prop :=
  ∀ (s : State) (ag : Agent) (v : Word64) (r : MeshReq),
    let b := s.body
    let e := s.env
    let clean := ∀ p, armedAt b (detOf 10 p) = false
    let admin := (∃ p, ag = .host p 0 ∧ bootFailed b = false) ∨ ag = .mp
    let same := fun (o : Nat) (x : Instr) => ∃ t, exec (.csrWrite ag o 8 v) s = .next t ∧ exec x s = .next t
    let n := if r.write then r.bytes.length else r.len
    let quiet := b.flag (oErr 0x20) 8 = false
    let failed := fun (a : Nat) =>
      s.withBody (if r.write then addrError e r.req a b else (addrError e r.req a b).answer r.req (ones r.len))
    (∀ a size, clean → csrSized a size = false →
      exec (.csrWrite ag a size v) s = .next (s.withBody (csrError e ag a b))) ∧
    (∀ a size, clean → csrSized a size = true → csrPlace b ag a = .absent → (∀ p f, ag = .host p f → f = 0) →
      exec (.csrWrite ag a size v) s = .next (s.withBody (addrError e (agentReq ag) a b))) ∧
    (clean → admin → same (oErr 8) (.errTailWrite ag v) ∧ same (oErr 0x18) (.errInjArm ag v) ∧
      same (oTr 8) (.trGenWrite ag v) ∧ same (oTr 0x10) (.trHomeWrite ag v) ∧ same oTbSet (.tbSetWrite ag v) ∧
      same oTbCfg (.tbCfgWrite ag v) ∧ (∀ q, q < 8 → same (oSq q 0) (.sqCfgWrite ag q v)) ∧
      (∀ k, k < 384 → same (oSubst k) (.substMapWrite ag k v)) ∧ (∀ p, p < 2 → same (oHiBar2 p) (.hiBar2Write ag p v)) ∧
      (bitOf v.toNat 31 = true → same oDevRst (.deviceReset ag v noBoot)) ∧
      (bitOf v.toNat 31 = false → bitOf v.toNat 30 = true → same oDevRst (.squadReset ag v)) ∧
      (bitOf v.toNat 31 = false → bitOf v.toNat 30 = false → same oDevRst (.tileReset ag v))) ∧
    (clean → admin → ∀ o x, o ∈ [oMpRefCoord, oMpEpoch, oMpShed, oMpFwStage, oMpStep 0, oMpStep 7, oTr 0x18, oTr 0x28,
        oTr 0x30, oSqArb, oRtr 0x28, oErr 0x10] → regSpec o = some x →
      let w := x.apply (b.csr o) v.toNat
      (mayWrite ag o = true → encodingOk o w = true → ∃ t, exec (.csrWrite ag o 8 v) s = .next t ∧ t.body.csr o = w ∧
        t.body.mem = b.mem ∧ t.time = s.time) ∧
      (mayWrite ag o = false ∨ encodingOk o w = false →
        exec (.csrWrite ag o 8 v) s = .next (s.withBody (csrError e ag o b)))) ∧
    (∀ dr, b.flag oDevDbg 0 = false ∨ b.flag oDevDbg 1 = false → exec (.tapCsr dr) s = .next s) ∧
    (∀ dr l, b.flag oDevDbg 0 = true → b.flag oDevDbg 1 = true → bitOf dr.toNat 2 = false →
      csrLoad .tap (bitsOf dr.toNat 3 25 * 8) 8 s.fuse s.time b = (l, s.time, b) →
      exec (.tapCsr dr) s = .next (s.withBody { b with
        dev.hi.tapStatus := 0, dev.hi.tapData := BitVec.ofNat 64 (ofBytes l) })) ∧
    (∀ dr, b.flag oDevDbg 0 = true → b.flag oDevDbg 1 = true → bitOf dr.toNat 2 = true →
      ∃ t, exec (.tapCsr dr) s = .next t ∧ t.body.dev.hi.tapData = BitVec.ofNat 64 (bitsOf dr.toNat 64 64) ∧
        t.time = (csrAccess .tap (bitsOf dr.toNat 3 25 * 8) 8 (bitsOf dr.toNat 64 64) s.fuse s.time b).1) ∧
    (∀ k off, r.dst = .tile k off → reachesMemory b r = true → k < 384 → off < 0x20_0000 →
      b.holdOf k = true → exec (.meshRequest r) s = .next (s.withBody (holdRequest r none b))) ∧
    (∀ pa x o, r.dst = .phys pa ∨ (∃ k off, r.dst = .tile k off ∧ k < 384 ∧ off < 0x20_0000 ∧ b.holdOf k = false ∧
        donorWaits b k ((b.squadAt r.src).getD 8) = false ∧ pa = siteBase (b.siteOf k) + off) →
      regionOf pa = .sram x o → reachesMemory b r = true → quiet →
      (∀ i ∈ rangeBanks (o, n), ((b.site x).bank i).waking = false) →
      let serves := (b.site x).servesAll 6 [(o, n)] = true
      let err := if isManager r.req then ownerError e r.req x (o / 0x10000) pa b else b
      (serves → r.write = true → exec (.meshRequest r) s = .next (s.withBody { b with mem := b.mem.write pa r.bytes })) ∧
      (serves → r.write = false → exec (.meshRequest r) s = .next (s.withBody (b.answer r.req (b.mem.bytes pa n)))) ∧
      (¬ serves → o % 0x10000 + n ≤ 0x10000 → r.write = true → exec (.meshRequest r) s = .next (s.withBody err)) ∧
      (¬ serves → o % 0x10000 + n ≤ 0x10000 → r.write = false →
        exec (.meshRequest r) s = .next (s.withBody (err.answer r.req (ones n))))) ∧
    (∀ pa x o, r.dst = .phys pa → regionOf pa = .sram x o → reachesMemory b r = true → quiet →
      (∃ i ∈ rangeBanks (o, n), (b.site x).serves 6 i = true ∧ ((b.site x).bank i).waking = true) →
      exec (.meshRequest r) s = .next (s.withBody (holdRequest r (some x) b))) ∧
    (∀ pa, r.dst = .phys pa → pa + n ≤ hbmTop → reachesMemory b r = true → quiet →
      (∀ i, i < 12 → stackLost b i = false) →
      (r.write = true → ∃ t, exec (.meshRequest r) s = .next t ∧ t.body.mem = b.mem.write pa r.bytes) ∧
      (r.write = false → b.dev.poison = [] →
        exec (.meshRequest r) s = .next (s.withBody (b.answer r.req (b.mem.bytes pa n))))) ∧
    (∀ pa p, r.dst = .phys pa → regionOf pa = .host p → regionOf (pa + n) = .host p → hostUp b p = true →
      reachesMemory b r = true → quiet →
      (r.write = true → exec (.meshRequest r) s = .next (s.withBody { b with mem := b.mem.write pa r.bytes })) ∧
      (r.write = false → exec (.meshRequest r) s = .next (s.withBody (b.answer r.req (b.mem.bytes pa n))))) ∧
    (∀ pa o a, r.dst = .phys pa → regionOf pa = .csr o → agentOf r = some a →
      (r.write = true → csrSized o n = false → exec (.meshRequest r) s = .next (s.withBody (csrError e a o b))) ∧
      (r.write = true → csrSized o n = true → clean → ∃ t, exec (.meshRequest r) s = .next t ∧
        exec (.csrWrite a o n (BitVec.ofNat 64 (ofBytes r.bytes))) s = .next t) ∧
      (r.write = false → ∃ t, exec (.meshRequest r) s = .next t ∧
        t.body = (csrLoad a o n s.fuse s.time b).2.2.answer r.req (csrLoad a o n s.fuse s.time b).1)) ∧
    (∀ pa o, r.dst = .phys pa → (regionOf pa = .csr o ∧ agentOf r = none) ∨
        (regionOf pa ≠ .csr o ∧ (∀ x, regionOf pa ≠ .csr x) ∧ reachesMemory b r = false) →
      exec (.meshRequest r) s = .next (failed pa)) ∧
    (∀ k off, r.dst = .tile k off → reachesMemory b r = false ∨ 384 ≤ k ∨ 0x20_0000 ≤ off →
      exec (.meshRequest r) s = .next (failed off)) ∧
    (∀ pa, r.dst = .phys pa → regionOf pa = .hole → quiet → reachesMemory b r = true → r.write = false → 0 < n →
      pa % 0x10000 + n ≤ 0x10000 →
      exec (.meshRequest r) s = .next (s.withBody ((addrError e r.req pa b).answer r.req (ones n)))) ∧
    (∀ pa a, r.dst = .phys pa → regionOf pa = .csr oTbTime → agentOf r = some a → (∀ p f, a ≠ .host p (f + 1)) →
      (∀ p, a = .host p 0 → bootFailed b = false) → r.write = false → r.len = 8 →
      exec (.meshRequest r) s = .next (s.withBody (b.answer r.req (leBytes s.time.time.toNat 8)))) ∧
    (∀ pa, r.dst = .phys pa → regionOf pa = .csr oTbTime → agentOf r = some .mp → r.write = false → r.len = 4 →
      ∃ t, exec (.meshRequest r) s = .next t ∧ t.body = b.answer r.req (leBytes s.time.time.toNat 4) ∧
        t.time.latches.find? (fun x => x.1 == 10) = some (10, BitVec.ofNat 32 (s.time.time.toNat / 2 ^ 32))) ∧
    (∀ x off write bytes len, 408 ≤ x ∨ 0x20_0000 ≤ off →
      exec (.siteWindowAccess ag x off write bytes len) s = .next s) ∧
    (∀ x off bytes len, x < 408 → off < 0x20_0000 → quiet →
      (∀ i ∈ rangeBanks (off, bytes.length), ((b.site x).bank i).waking = false) →
      let serves := (b.site x).servesAll 6 [(off, bytes.length)] = true
      (serves → exec (.siteWindowAccess ag x off true bytes len) s =
        .next (s.withBody { b with mem := b.mem.write (siteBase x + off) bytes })) ∧
      (¬ serves → off % 0x10000 + bytes.length ≤ 0x10000 → exec (.siteWindowAccess ag x off true bytes len) s =
        .next (s.withBody (ownerError e (agentReq ag) x (off / 0x10000) (siteBase x + off) b)))) ∧
    (∀ x off write bytes len, x < 408 → off < 0x20_0000 → quiet →
      (∃ i ∈ rangeBanks (off, if write then bytes.length else len),
        (b.site x).serves 6 i = true ∧ ((b.site x).bank i).waking = true) →
      let dst := MeshDst.phys (siteBase x + off)
      exec (.siteWindowAccess ag x off write bytes len) s = .next (s.withBody
        (holdRequest ⟨agentStop ag, agentReq ag, dst, write, bytes, len⟩ (some x) b))) ∧
    (∀ x off bytes len, x < 408 → off < 0x20_0000 → quiet →
      (∀ i ∈ rangeBanks (off, len), ((b.site x).bank i).waking = false) →
      let serves := (b.site x).servesAll 6 [(off, len)] = true
      let err := ownerError e (agentReq ag) x (off / 0x10000) (siteBase x + off) b
      (serves → exec (.siteWindowAccess ag x off false bytes len) s =
        .next (s.withBody (b.answer (agentReq ag) (b.mem.bytes (siteBase x + off) len)))) ∧
      (¬ serves → off % 0x10000 + len ≤ 0x10000 → exec (.siteWindowAccess ag x off false bytes len) s =
        .next (s.withBody (err.answer (agentReq ag) (ones len)))))
end

