-- ==== Sys2Proof/Laws/Tab.lean ====
section
/-! SUPPORT. Sparse tables: reading after writing, and the rising order of their keys. -/
namespace Sys2Proof.Machine

/-- Reading the key just written. -/
@[simp] theorem Tab.get_set_same {α : Type} (t : Tab α) (d v : α) (k : Nat) : (t.set k v).get d k = v := by
  induction t with
  | nil => simp [Tab.set, Tab.get]
  | cons a r ih =>
    obtain ⟨k', v'⟩ := a
    simp only [Tab.set]
    split
    · simp [Tab.get]
    · split
      · simp [Tab.get]
      · rename_i h _; simp [Tab.get, h, ih]

/-- Reading another key. -/
theorem Tab.get_set_other {α : Type} (t : Tab α) (d v : α) {k j : Nat} (h : j ≠ k) :
    (t.set k v).get d j = t.get d j := by
  induction t with
  | nil => simp [Tab.set, Tab.get, Ne.symm h]
  | cons a r ih =>
    obtain ⟨k', v'⟩ := a
    simp only [Tab.set]
    split
    · rename_i e; subst e; simp [Tab.get, Ne.symm h]
    · split
      · simp [Tab.get, Ne.symm h]
      · simp only [Tab.get]; split
        · rfl
        · exact ih

/-- Writing twice keeps the last value. -/
@[simp] theorem Tab.set_set {α : Type} (t : Tab α) (k : Nat) (v w : α) : (t.set k v).set k w = t.set k w := by
  induction t with
  | nil => simp [Tab.set]
  | cons a r ih =>
    obtain ⟨k', v'⟩ := a
    by_cases e : k' = k
    · simp [Tab.set, e]
    · by_cases l : k < k'
      · simp [Tab.set, e, l]
      · simp [Tab.set, e, l, ih]

/-- The head's key is below every key behind it. -/
theorem Tab.wf_cons {α : Type} {a : Nat × α} {r : Tab α} (h : Tab.wf (a :: r) = true) :
    Tab.wf r = true ∧ ∀ b ∈ r.head?, a.1 < b.1 := by
  cases r with
  | nil => simp [Tab.wf]
  | cons b r =>
    simp only [Tab.wf, Bool.and_eq_true, decide_eq_true_eq] at h
    simpa [h.2] using h.1

/-- Writing keeps the order. -/
theorem Tab.wf_set {α : Type} (t : Tab α) (k : Nat) (v : α) (h : Tab.wf t = true) : Tab.wf (t.set k v) = true := by
  induction t with
  | nil => rfl
  | cons a r ih =>
    obtain ⟨k', v'⟩ := a
    obtain ⟨hr, hh⟩ := Tab.wf_cons h
    simp only [Tab.set]
    split
    · rename_i e; subst e
      cases r with
      | nil => rfl
      | cons b r => simp [Tab.wf] at h ⊢; exact h
    · rename_i e
      split
      · rename_i l; simp [Tab.wf, l]; simpa [Tab.wf] using h
      · rename_i l
        have hk : k' < k := by omega
        have ih' := ih hr
        cases r with
        | nil => simp [Tab.set, Tab.wf, hk]
        | cons b r =>
          obtain ⟨kb, vb⟩ := b
          have hb : k' < kb := by simpa using hh
          simp only [Tab.set] at ih' ⊢
          split at ih' <;> rename_i c
          · subst c; simpa [Tab.set, Tab.wf, hk] using ih'
          · split at ih' <;> rename_i d
            · simp only [c, d, if_false, if_true]; simp [Tab.wf, hk]; simpa [Tab.wf] using ih'
            · simp only [c, d, if_false]; simp only [Tab.wf, Bool.and_eq_true, decide_eq_true_eq]; exact ⟨hb, ih'⟩

end Sys2Proof.Machine
end

