-- ==== Sys2Proof/Laws/State.lean ====
section
/-! SUPPORT. One lemma per update and per part of the body it leaves or gives: proofs rewrite with these and unfold no
record update. -/
namespace Sys2Proof.Machine

@[simp] theorem Body.setCsr_mem (b : Body) (o v : Nat) : (b.setCsr o v).mem = b.mem := rfl
@[simp] theorem Body.setCsr_flash (b : Body) (o v : Nat) : (b.setCsr o v).flash = b.flash := rfl
@[simp] theorem Body.setCsr_free (b : Body) (o v : Nat) : (b.setCsr o v).free = b.free := rfl
@[simp] theorem Body.setCsr_eff (b : Body) (o v : Nat) : (b.setCsr o v).dev.eff = b.dev.eff := rfl
@[simp] theorem Body.setCsr_held (b : Body) (o v : Nat) : (b.setCsr o v).dev.held = b.dev.held := rfl
@[simp] theorem Body.setCsr_flight (b : Body) (o v : Nat) : (b.setCsr o v).dev.flight = b.dev.flight := rfl
@[simp] theorem Body.setCsr_poison (b : Body) (o v : Nat) : (b.setCsr o v).dev.poison = b.dev.poison := rfl
@[simp] theorem Body.setCsr_scrub (b : Body) (o v : Nat) : (b.setCsr o v).dev.scrub = b.dev.scrub := rfl
@[simp] theorem Body.setCsr_repairs (b : Body) (o v : Nat) : (b.setCsr o v).dev.repairs = b.dev.repairs := rfl
@[simp] theorem Body.setCsr_benchBad (b : Body) (o v : Nat) : (b.setCsr o v).dev.benchBad = b.dev.benchBad := rfl
@[simp] theorem Body.setCsr_homes (b : Body) (o v : Nat) : (b.setCsr o v).dev.homes = b.dev.homes := rfl
@[simp] theorem Body.setCsr_fab (b : Body) (o v : Nat) : (b.setCsr o v).dev.fab = b.dev.fab := rfl
@[simp] theorem Body.setCsr_pg (b : Body) (o v : Nat) : (b.setCsr o v).dev.pg = b.dev.pg := rfl
@[simp] theorem Body.setCsr_tr (b : Body) (o v : Nat) : (b.setCsr o v).dev.tr = b.dev.tr := rfl
@[simp] theorem Body.setCsr_mp (b : Body) (o v : Nat) : (b.setCsr o v).dev.mp = b.dev.mp := rfl
@[simp] theorem Body.setCsr_sq (b : Body) (o v : Nat) : (b.setCsr o v).dev.sq = b.dev.sq := rfl
@[simp] theorem Body.setCsr_hi (b : Body) (o v : Nat) : (b.setCsr o v).dev.hi = b.dev.hi := rfl
@[simp] theorem Body.setCsr_ticks (b : Body) (o v : Nat) : (b.setCsr o v).dev.ticks = b.dev.ticks := rfl
@[simp] theorem Body.setCsr_sites (b : Body) (o v : Nat) : (b.setCsr o v).dev.sites = b.dev.sites := rfl

@[simp] theorem Body.setField_mem (b : Body) (o lo len v : Nat) : (b.setField o lo len v).mem = b.mem := rfl
@[simp] theorem Body.setField_flash (b : Body) (o lo len v : Nat) : (b.setField o lo len v).flash = b.flash := rfl
@[simp] theorem Body.setField_free (b : Body) (o lo len v : Nat) : (b.setField o lo len v).free = b.free := rfl
@[simp] theorem Body.setField_eff (b : Body) (o lo len v : Nat) : (b.setField o lo len v).dev.eff = b.dev.eff := rfl
@[simp] theorem Body.setField_held (b : Body) (o lo len v : Nat) : (b.setField o lo len v).dev.held = b.dev.held := rfl
@[simp] theorem Body.setField_flight (b : Body) (o lo len v : Nat) : (b.setField o lo len v).dev.flight = b.dev.flight := rfl
@[simp] theorem Body.setField_poison (b : Body) (o lo len v : Nat) : (b.setField o lo len v).dev.poison = b.dev.poison := rfl
@[simp] theorem Body.setField_scrub (b : Body) (o lo len v : Nat) : (b.setField o lo len v).dev.scrub = b.dev.scrub := rfl
@[simp] theorem Body.setField_repairs (b : Body) (o lo len v : Nat) : (b.setField o lo len v).dev.repairs = b.dev.repairs := rfl
@[simp] theorem Body.setField_benchBad (b : Body) (o lo len v : Nat) : (b.setField o lo len v).dev.benchBad = b.dev.benchBad := rfl
@[simp] theorem Body.setField_homes (b : Body) (o lo len v : Nat) : (b.setField o lo len v).dev.homes = b.dev.homes := rfl
@[simp] theorem Body.setField_fab (b : Body) (o lo len v : Nat) : (b.setField o lo len v).dev.fab = b.dev.fab := rfl
@[simp] theorem Body.setField_pg (b : Body) (o lo len v : Nat) : (b.setField o lo len v).dev.pg = b.dev.pg := rfl
@[simp] theorem Body.setField_tr (b : Body) (o lo len v : Nat) : (b.setField o lo len v).dev.tr = b.dev.tr := rfl
@[simp] theorem Body.setField_mp (b : Body) (o lo len v : Nat) : (b.setField o lo len v).dev.mp = b.dev.mp := rfl
@[simp] theorem Body.setField_sq (b : Body) (o lo len v : Nat) : (b.setField o lo len v).dev.sq = b.dev.sq := rfl
@[simp] theorem Body.setField_hi (b : Body) (o lo len v : Nat) : (b.setField o lo len v).dev.hi = b.dev.hi := rfl
@[simp] theorem Body.setField_ticks (b : Body) (o lo len v : Nat) : (b.setField o lo len v).dev.ticks = b.dev.ticks := rfl
@[simp] theorem Body.setField_sites (b : Body) (o lo len v : Nat) : (b.setField o lo len v).dev.sites = b.dev.sites := rfl

@[simp] theorem Body.bumpSat_mem (b : Body) (o lo len : Nat) : (b.bumpSat o lo len).mem = b.mem := rfl
@[simp] theorem Body.bumpSat_flash (b : Body) (o lo len : Nat) : (b.bumpSat o lo len).flash = b.flash := rfl
@[simp] theorem Body.bumpSat_free (b : Body) (o lo len : Nat) : (b.bumpSat o lo len).free = b.free := rfl
@[simp] theorem Body.bumpSat_eff (b : Body) (o lo len : Nat) : (b.bumpSat o lo len).dev.eff = b.dev.eff := rfl
@[simp] theorem Body.bumpSat_held (b : Body) (o lo len : Nat) : (b.bumpSat o lo len).dev.held = b.dev.held := rfl
@[simp] theorem Body.bumpSat_flight (b : Body) (o lo len : Nat) : (b.bumpSat o lo len).dev.flight = b.dev.flight := rfl
@[simp] theorem Body.bumpSat_poison (b : Body) (o lo len : Nat) : (b.bumpSat o lo len).dev.poison = b.dev.poison := rfl
@[simp] theorem Body.bumpSat_scrub (b : Body) (o lo len : Nat) : (b.bumpSat o lo len).dev.scrub = b.dev.scrub := rfl
@[simp] theorem Body.bumpSat_repairs (b : Body) (o lo len : Nat) : (b.bumpSat o lo len).dev.repairs = b.dev.repairs := rfl
@[simp] theorem Body.bumpSat_benchBad (b : Body) (o lo len : Nat) : (b.bumpSat o lo len).dev.benchBad = b.dev.benchBad := rfl
@[simp] theorem Body.bumpSat_homes (b : Body) (o lo len : Nat) : (b.bumpSat o lo len).dev.homes = b.dev.homes := rfl
@[simp] theorem Body.bumpSat_fab (b : Body) (o lo len : Nat) : (b.bumpSat o lo len).dev.fab = b.dev.fab := rfl
@[simp] theorem Body.bumpSat_pg (b : Body) (o lo len : Nat) : (b.bumpSat o lo len).dev.pg = b.dev.pg := rfl
@[simp] theorem Body.bumpSat_tr (b : Body) (o lo len : Nat) : (b.bumpSat o lo len).dev.tr = b.dev.tr := rfl
@[simp] theorem Body.bumpSat_mp (b : Body) (o lo len : Nat) : (b.bumpSat o lo len).dev.mp = b.dev.mp := rfl
@[simp] theorem Body.bumpSat_sq (b : Body) (o lo len : Nat) : (b.bumpSat o lo len).dev.sq = b.dev.sq := rfl
@[simp] theorem Body.bumpSat_hi (b : Body) (o lo len : Nat) : (b.bumpSat o lo len).dev.hi = b.dev.hi := rfl
@[simp] theorem Body.bumpSat_ticks (b : Body) (o lo len : Nat) : (b.bumpSat o lo len).dev.ticks = b.dev.ticks := rfl
@[simp] theorem Body.bumpSat_sites (b : Body) (o lo len : Nat) : (b.bumpSat o lo len).dev.sites = b.dev.sites := rfl

@[simp] theorem Body.bumpWrap_mem (b : Body) (o lo len : Nat) : (b.bumpWrap o lo len).mem = b.mem := rfl
@[simp] theorem Body.bumpWrap_flash (b : Body) (o lo len : Nat) : (b.bumpWrap o lo len).flash = b.flash := rfl
@[simp] theorem Body.bumpWrap_free (b : Body) (o lo len : Nat) : (b.bumpWrap o lo len).free = b.free := rfl
@[simp] theorem Body.bumpWrap_eff (b : Body) (o lo len : Nat) : (b.bumpWrap o lo len).dev.eff = b.dev.eff := rfl
@[simp] theorem Body.bumpWrap_held (b : Body) (o lo len : Nat) : (b.bumpWrap o lo len).dev.held = b.dev.held := rfl
@[simp] theorem Body.bumpWrap_flight (b : Body) (o lo len : Nat) : (b.bumpWrap o lo len).dev.flight = b.dev.flight := rfl
@[simp] theorem Body.bumpWrap_poison (b : Body) (o lo len : Nat) : (b.bumpWrap o lo len).dev.poison = b.dev.poison := rfl
@[simp] theorem Body.bumpWrap_scrub (b : Body) (o lo len : Nat) : (b.bumpWrap o lo len).dev.scrub = b.dev.scrub := rfl
@[simp] theorem Body.bumpWrap_repairs (b : Body) (o lo len : Nat) : (b.bumpWrap o lo len).dev.repairs = b.dev.repairs := rfl
@[simp] theorem Body.bumpWrap_benchBad (b : Body) (o lo len : Nat) : (b.bumpWrap o lo len).dev.benchBad = b.dev.benchBad := rfl
@[simp] theorem Body.bumpWrap_homes (b : Body) (o lo len : Nat) : (b.bumpWrap o lo len).dev.homes = b.dev.homes := rfl
@[simp] theorem Body.bumpWrap_fab (b : Body) (o lo len : Nat) : (b.bumpWrap o lo len).dev.fab = b.dev.fab := rfl
@[simp] theorem Body.bumpWrap_pg (b : Body) (o lo len : Nat) : (b.bumpWrap o lo len).dev.pg = b.dev.pg := rfl
@[simp] theorem Body.bumpWrap_tr (b : Body) (o lo len : Nat) : (b.bumpWrap o lo len).dev.tr = b.dev.tr := rfl
@[simp] theorem Body.bumpWrap_mp (b : Body) (o lo len : Nat) : (b.bumpWrap o lo len).dev.mp = b.dev.mp := rfl
@[simp] theorem Body.bumpWrap_sq (b : Body) (o lo len : Nat) : (b.bumpWrap o lo len).dev.sq = b.dev.sq := rfl
@[simp] theorem Body.bumpWrap_hi (b : Body) (o lo len : Nat) : (b.bumpWrap o lo len).dev.hi = b.dev.hi := rfl
@[simp] theorem Body.bumpWrap_ticks (b : Body) (o lo len : Nat) : (b.bumpWrap o lo len).dev.ticks = b.dev.ticks := rfl
@[simp] theorem Body.bumpWrap_sites (b : Body) (o lo len : Nat) : (b.bumpWrap o lo len).dev.sites = b.dev.sites := rfl

@[simp] theorem Body.setSite_mem (b : Body) (n : Nat) (t : Site) : (b.setSite n t).mem = b.mem := rfl
@[simp] theorem Body.setSite_flash (b : Body) (n : Nat) (t : Site) : (b.setSite n t).flash = b.flash := rfl
@[simp] theorem Body.setSite_free (b : Body) (n : Nat) (t : Site) : (b.setSite n t).free = b.free := rfl
@[simp] theorem Body.setSite_eff (b : Body) (n : Nat) (t : Site) : (b.setSite n t).dev.eff = b.dev.eff := rfl
@[simp] theorem Body.setSite_held (b : Body) (n : Nat) (t : Site) : (b.setSite n t).dev.held = b.dev.held := rfl
@[simp] theorem Body.setSite_flight (b : Body) (n : Nat) (t : Site) : (b.setSite n t).dev.flight = b.dev.flight := rfl
@[simp] theorem Body.setSite_poison (b : Body) (n : Nat) (t : Site) : (b.setSite n t).dev.poison = b.dev.poison := rfl
@[simp] theorem Body.setSite_scrub (b : Body) (n : Nat) (t : Site) : (b.setSite n t).dev.scrub = b.dev.scrub := rfl
@[simp] theorem Body.setSite_repairs (b : Body) (n : Nat) (t : Site) : (b.setSite n t).dev.repairs = b.dev.repairs := rfl
@[simp] theorem Body.setSite_benchBad (b : Body) (n : Nat) (t : Site) : (b.setSite n t).dev.benchBad = b.dev.benchBad := rfl
@[simp] theorem Body.setSite_homes (b : Body) (n : Nat) (t : Site) : (b.setSite n t).dev.homes = b.dev.homes := rfl
@[simp] theorem Body.setSite_fab (b : Body) (n : Nat) (t : Site) : (b.setSite n t).dev.fab = b.dev.fab := rfl
@[simp] theorem Body.setSite_pg (b : Body) (n : Nat) (t : Site) : (b.setSite n t).dev.pg = b.dev.pg := rfl
@[simp] theorem Body.setSite_tr (b : Body) (n : Nat) (t : Site) : (b.setSite n t).dev.tr = b.dev.tr := rfl
@[simp] theorem Body.setSite_mp (b : Body) (n : Nat) (t : Site) : (b.setSite n t).dev.mp = b.dev.mp := rfl
@[simp] theorem Body.setSite_sq (b : Body) (n : Nat) (t : Site) : (b.setSite n t).dev.sq = b.dev.sq := rfl
@[simp] theorem Body.setSite_hi (b : Body) (n : Nat) (t : Site) : (b.setSite n t).dev.hi = b.dev.hi := rfl
@[simp] theorem Body.setSite_ticks (b : Body) (n : Nat) (t : Site) : (b.setSite n t).dev.ticks = b.dev.ticks := rfl
@[simp] theorem Body.setSite_csr (b : Body) (n : Nat) (t : Site) : (b.setSite n t).dev.csr = b.dev.csr := rfl

@[simp] theorem Body.modSite_mem (b : Body) (n : Nat) (f : Site → Site) : (b.modSite n f).mem = b.mem := rfl
@[simp] theorem Body.modSite_flash (b : Body) (n : Nat) (f : Site → Site) : (b.modSite n f).flash = b.flash := rfl
@[simp] theorem Body.modSite_free (b : Body) (n : Nat) (f : Site → Site) : (b.modSite n f).free = b.free := rfl
@[simp] theorem Body.modSite_eff (b : Body) (n : Nat) (f : Site → Site) : (b.modSite n f).dev.eff = b.dev.eff := rfl
@[simp] theorem Body.modSite_held (b : Body) (n : Nat) (f : Site → Site) : (b.modSite n f).dev.held = b.dev.held := rfl
@[simp] theorem Body.modSite_flight (b : Body) (n : Nat) (f : Site → Site) : (b.modSite n f).dev.flight = b.dev.flight := rfl
@[simp] theorem Body.modSite_poison (b : Body) (n : Nat) (f : Site → Site) : (b.modSite n f).dev.poison = b.dev.poison := rfl
@[simp] theorem Body.modSite_scrub (b : Body) (n : Nat) (f : Site → Site) : (b.modSite n f).dev.scrub = b.dev.scrub := rfl
@[simp] theorem Body.modSite_repairs (b : Body) (n : Nat) (f : Site → Site) : (b.modSite n f).dev.repairs = b.dev.repairs := rfl
@[simp] theorem Body.modSite_benchBad (b : Body) (n : Nat) (f : Site → Site) : (b.modSite n f).dev.benchBad = b.dev.benchBad := rfl
@[simp] theorem Body.modSite_homes (b : Body) (n : Nat) (f : Site → Site) : (b.modSite n f).dev.homes = b.dev.homes := rfl
@[simp] theorem Body.modSite_fab (b : Body) (n : Nat) (f : Site → Site) : (b.modSite n f).dev.fab = b.dev.fab := rfl
@[simp] theorem Body.modSite_pg (b : Body) (n : Nat) (f : Site → Site) : (b.modSite n f).dev.pg = b.dev.pg := rfl
@[simp] theorem Body.modSite_tr (b : Body) (n : Nat) (f : Site → Site) : (b.modSite n f).dev.tr = b.dev.tr := rfl
@[simp] theorem Body.modSite_mp (b : Body) (n : Nat) (f : Site → Site) : (b.modSite n f).dev.mp = b.dev.mp := rfl
@[simp] theorem Body.modSite_sq (b : Body) (n : Nat) (f : Site → Site) : (b.modSite n f).dev.sq = b.dev.sq := rfl
@[simp] theorem Body.modSite_hi (b : Body) (n : Nat) (f : Site → Site) : (b.modSite n f).dev.hi = b.dev.hi := rfl
@[simp] theorem Body.modSite_ticks (b : Body) (n : Nat) (f : Site → Site) : (b.modSite n f).dev.ticks = b.dev.ticks := rfl
@[simp] theorem Body.modSite_csr (b : Body) (n : Nat) (f : Site → Site) : (b.modSite n f).dev.csr = b.dev.csr := rfl

-- Sites.

/-- A site stored is read back. -/
@[simp] theorem Body.site_setSite (b : Body) (n : Nat) (t : Site) : (b.setSite n t).site n = t :=
  Tab.get_set_same _ _ _ _

/-- The other sites stay. -/
theorem Body.site_setSite_other (b : Body) {n m : Nat} (t : Site) (h : m ≠ n) : (b.setSite n t).site m = b.site m :=
  Tab.get_set_other _ _ _ h

/-- A site changed is read back. -/
@[simp] theorem Body.site_modSite (b : Body) (n : Nat) (f : Site → Site) : (b.modSite n f).site n = f (b.site n) :=
  Tab.get_set_same _ _ _ _

/-- The other sites stay. -/
theorem Body.site_modSite_other (b : Body) {n m : Nat} (f : Site → Site) (h : m ≠ n) :
    (b.modSite n f).site m = b.site m := Tab.get_set_other _ _ _ h

/-- Two stores of a site are the second. -/
@[simp] theorem Body.setSite_setSite (b : Body) (n : Nat) (t u : Site) : (b.setSite n t).setSite n u = b.setSite n u := by
  simp [Body.setSite]

/-- Two changes of a site are one. -/
@[simp] theorem Body.modSite_modSite (b : Body) (n : Nat) (f g : Site → Site) :
    (b.modSite n f).modSite n g = b.modSite n fun t => g (f t) := by
  simp only [Body.modSite, Body.setSite_setSite, Body.site_setSite]

/-- Register words stay when a site changes. -/
@[simp] theorem Body.csr_modSite' (b : Body) (n : Nat) (f : Site → Site) (o : Nat) : (b.modSite n f).csr o = b.csr o := rfl

/-- Sites stay when a register word changes. -/
@[simp] theorem Body.site_setCsr (b : Body) (o v n : Nat) : (b.setCsr o v).site n = b.site n := rfl

/-- Sites stay when a register field changes. -/
@[simp] theorem Body.site_setField (b : Body) (o lo len v n : Nat) : (b.setField o lo len v).site n = b.site n := rfl

-- Register words.

/-- A register word stored is read back, cut to 64 bits. -/
@[simp] theorem Body.csr_setCsr (b : Body) (o v : Nat) : (b.setCsr o v).csr o = v % 2 ^ 64 := by
  simp [Body.csr, Body.setCsr]

/-- The other words stay. -/
theorem Body.csr_setCsr_other (b : Body) {o p : Nat} (v : Nat) (h : p ≠ o) : (b.setCsr o v).csr p = b.csr p := by
  simp only [Body.csr, Body.setCsr, Tab.get_set_other _ _ _ h]

/-- The other words stay when a field changes. -/
theorem Body.csr_setField_other (b : Body) {o p : Nat} (lo len v : Nat) (h : p ≠ o) :
    (b.setField o lo len v).csr p = b.csr p := Body.csr_setCsr_other b _ h

-- Core registers.

/-- x0 reads as zero (R166). -/
@[simp] theorem CoreSt.getX_zero (c : CoreSt) : c.getX 0 = 0 := rfl

/-- A write of x0 is discarded (R166). -/
@[simp] theorem CoreSt.setX_zero (c : CoreSt) (v : Word64) : c.setX 0 v = c := rfl

/-- A scalar register written is read back. -/
theorem CoreSt.getX_setX (c : CoreSt) {r : RegNo} (v : Word64) (h : r ≠ 0) : (c.setX r v).getX r = v := by
  simp only [CoreSt.getX, CoreSt.setX, h, if_false, Tab.get_set_same]

/-- The other scalar registers stay. -/
theorem CoreSt.getX_setX_other (c : CoreSt) {r q : RegNo} (v : Word64) (h : q ≠ r) : (c.setX r v).getX q = c.getX q := by
  by_cases hq : q = 0
  · subst hq; rfl
  · by_cases hr : r = 0
    · simp [CoreSt.setX, hr]
    · simp only [CoreSt.getX, CoreSt.setX, hr, hq, if_false]
      exact Tab.get_set_other _ _ _ (fun e => h (BitVec.eq_of_toNat_eq e))

/-- An FP register written is read back. -/
@[simp] theorem CoreSt.getF_setF (c : CoreSt) (r : RegNo) (v : Word64) : (c.setF r v).getF r = v := by
  simp [CoreSt.getF, CoreSt.setF]

/-- The other FP registers stay. -/
theorem CoreSt.getF_setF_other (c : CoreSt) {r q : RegNo} (v : Word64) (h : q ≠ r) : (c.setF r v).getF q = c.getF q :=
  Tab.get_set_other _ _ _ (fun e => h (BitVec.eq_of_toNat_eq e))

end Sys2Proof.Machine
end

