-- ==== Sys2Proof/Laws/Ops.lean ====
section
/-! SUPPORT. What the shared operations do, once: how a meaning ends, a read check without injection, and an
instruction of a core that executes to its end. -/
namespace Sys2Proof.Machine

/-- What a body meaning answers. -/
theorem bodyStep_eq (f : Env → Body → Body) (s : State) : bodyStep f s = .next (s.withBody (f s.env s.body)) := rfl

/-- What a time meaning answers. -/
theorem timeStep_eq (f : Fuses → TimeBase → Body → TimeBase × Body) (s : State) :
    timeStep f s = .next { s with time := (f s.fuse s.time s.body).1, body := (f s.fuse s.time s.body).2 } := rfl

/-- `b'` is `b` but for register words, the interrupt line of the MP and its evidence of errors, and pending interrupt
vectors: what reports of events may touch. -/
def Body.Reports (b b' : Body) : Prop :=
  ∃ csr irq faulty ces msix,
    b' = { b with dev.csr := csr, dev.mp.irq := irq, dev.mp.faulty := faulty, dev.mp.ces := ces, dev.hi.msix := msix }

/-- Nothing reported. -/
theorem Body.Reports.refl (b : Body) : b.Reports b := ⟨b.dev.csr, b.dev.mp.irq, b.dev.mp.faulty, b.dev.mp.ces, b.dev.hi.msix, rfl⟩

/-- Reports after reports. -/
theorem Body.Reports.trans {a b c : Body} (h : a.Reports b) (g : b.Reports c) : a.Reports c := by
  obtain ⟨_, _, _, _, _, rfl⟩ := h
  obtain ⟨c, i, f, t, m, rfl⟩ := g
  exact ⟨c, i, f, t, m, rfl⟩

/-- A register word stored is a report. -/
theorem Body.reports_setCsr (b : Body) (o v : Nat) : b.Reports (b.setCsr o v) :=
  ⟨_, b.dev.mp.irq, b.dev.mp.faulty, b.dev.mp.ces, b.dev.hi.msix, rfl⟩

/-- A raised vector is a report. -/
theorem Body.reports_raise (b : Body) (p f v : Nat) : b.Reports (b.raise p f v) := by
  unfold Body.raise
  split
  · exact .refl b
  · exact ⟨b.dev.csr, b.dev.mp.irq, b.dev.mp.faulty, b.dev.mp.ces, _, rfl⟩

/-- A vector raised of both PFs is a report. -/
theorem Body.reports_raisePf (b : Body) (v : Nat) : b.Reports (b.raisePf v) :=
  (b.reports_raise 0 0 v).trans (Body.reports_raise _ 1 0 v)

/-- A register field changed is a report. -/
theorem Body.reports_setField (b : Body) (o lo len v : Nat) : b.Reports (b.setField o lo len v) := b.reports_setCsr _ _

/-- Reports folded over a list. -/
theorem Body.reports_foldl {α : Type} (l : List α) (f : Body → α → Body) (h : ∀ (b : Body) (x : α), b.Reports (f b x))
    (b : Body) :
    b.Reports (l.foldl f b) := by
  induction l generalizing b with
  | nil => exact .refl b
  | cons x r ih => exact (h b x).trans (ih (f b x))

/-- A saturating count is a report. -/
theorem Body.reports_bumpSat (b : Body) (o lo len : Nat) : b.Reports (b.bumpSat o lo len) := b.reports_setCsr _ _

/-- The MP's interrupt line is a report. -/
theorem Body.reports_irq (b : Body) : b.Reports { b with dev.mp.irq := true } :=
  ⟨b.dev.csr, true, b.dev.mp.faulty, b.dev.mp.ces, b.dev.hi.msix, rfl⟩

/-- What the MP notes of an error is a report. -/
theorem reports_evidenceAt (r : ErrRec) (b : Body) : b.Reports (evidenceAt r b) := by
  unfold evidenceAt
  simp only []
  split
  · exact .refl b
  · split
    · exact ⟨b.dev.csr, b.dev.mp.irq, _, b.dev.mp.ces, b.dev.hi.msix, rfl⟩
    · split
      · exact ⟨b.dev.csr, b.dev.mp.irq, b.dev.mp.faulty, _, b.dev.hi.msix, rfl⟩
      · exact .refl b

/-- Telling of a record is a report. -/
theorem reports_tellErr (sev : Nat) (b : Body) : b.Reports (tellErr sev b) := by
  have h : b.Reports (if 1 ≤ sev then { b with dev.mp.irq := true } else b) := by
    split
    · exact b.reports_irq
    · exact .refl b
  unfold tellErr
  simp only []
  split
  · exact h.trans (Body.reports_raisePf _ _)
  · exact h

/-- What recording an error may touch (R437). -/
theorem reports_recordErr (e : Env) (r : ErrRec) (b : Body) : b.Reports (recordErr e r b) := by
  have h : b.Reports (countErr r b) := (reports_evidenceAt r b).trans (Body.reports_bumpSat _ _ _ _)
  unfold recordErr
  simp only []
  split
  · refine h.trans (Body.Reports.trans ?_ (reports_tellErr _ _))
    refine Body.Reports.trans (b := putErr e r _ _) ?_ ((Body.reports_setField _ _ _ _ _).trans (Body.reports_setField _ _ _ _ _))
    exact Body.reports_foldl _ _ (fun b x => b.reports_setCsr _ _) _
  · exact h.trans (Body.reports_bumpSat _ _ _ _)

/-- Reports leave memory. -/
theorem Body.Reports.mem {b b' : Body} (h : b.Reports b') : b'.mem = b.mem := by
  obtain ⟨_, _, _, _, _, rfl⟩ := h; rfl

/-- Reports leave the sites. -/
theorem Body.Reports.site {b b' : Body} (h : b.Reports b') (n : Nat) : b'.site n = b.site n := by
  obtain ⟨_, _, _, _, _, rfl⟩ := h; rfl

/-- Recording an error leaves memory. -/
@[simp] theorem recordErr_mem (e : Env) (r : ErrRec) (b : Body) : (recordErr e r b).mem = b.mem :=
  (reports_recordErr e r b).mem

/-- Recording an error leaves the sites. -/
@[simp] theorem recordErr_site (e : Env) (r : ErrRec) (b : Body) (n : Nat) : (recordErr e r b).site n = b.site n :=
  (reports_recordErr e r b).site n

/-- An exception leaves memory (R196). -/
@[simp] theorem takeExc_mem (e : Env) (n cause addr : Nat) (b : Body) : (takeExc e n cause addr b).mem = b.mem := by
  unfold takeExc
  simp only []
  split
  · simp
  · rfl

/-- A check of an SRAM word leaves memory. -/
@[simp] theorem checkWord_mem (e : Env) (n a : Nat) (b : Body) : (checkWord e n a b).2.mem = b.mem := by
  unfold checkWord check
  cases injected b (detOf 1 n) (a / 0x10000) with
  | none => rfl
  | some m =>
    simp only []
    split
    · rename_i h; cases h; simp [bankCe, useInjection]
    · rename_i h; cases h; simp [bankUe, useInjection]
    · rename_i h; cases h

/-- A check of an SRAM word leaves the cores. -/
@[simp] theorem checkWord_core (e : Env) (n a : Nat) (b : Body) :
    ((checkWord e n a b).2.site n).core = (b.site n).core := by
  unfold checkWord check
  cases injected b (detOf 1 n) (a / 0x10000) with
  | none => rfl
  | some m =>
    simp only []
    split
    · rename_i h; cases h; simp [bankCe, useInjection]
    · rename_i h; cases h; simp [bankUe, useInjection]
    · rename_i h; cases h

/-- A check that no injection meets changes nothing and finds nothing. -/
theorem checkWord_clean {e : Env} {n a : Nat} {b : Body} (h : injected b (detOf 1 n) (a / 0x10000) = none) :
    checkWord e n a b = (false, b) := by
  simp [checkWord, check, h]

/-- The bank of a word is the bank of its bytes. -/
theorem bank_of_word (a : Nat) : a / 8 * 8 / 0x10000 = a / 0x10000 := by omega

/-- What `coreReady` says of the core of a site. -/
theorem coreReady_iff (s : State) (n : Nat) : s.coreReady n = true ↔
    n < 408 ∧ (s.core n).running = true ∧ ((s.core n).dslot.isSome ∨ (s.core n).interrupt.isNone) ∧
      (s.bankAt n (s.core n).pc.toNat).owner = 1 ∧ (s.bankAt n (s.core n).pc.toNat).isOn = true ∧
      injected s.body (detOf 1 n) ((s.core n).pc.toNat / 0x10000) = none := by
  simp [State.coreReady, State.coreMayUse, and_assoc, Option.isNone_iff_eq_none]

/-- An instruction of a ready core, past its fetch. -/
theorem coreGo_ready {e : Env} {n word : Nat} {p : Place} {pre : CoreSt → Option Nat} {f : Body → CoreRes} {s : State}
    (h : s.coreReady n = true) :
    coreGo e n word p pre f s.body =
      if !p.slot && (s.core n).dslot.isSome then takeExc e n 0x02 word s.body
      else match pre (s.core n) with
        | some cause => takeExc e n cause word s.body
        | none =>
          if (s.core n).loops.atEnd (s.core n).pc && (!p.last || (s.core n).dslot.isSome) then takeExc e n 0x04 word s.body
          else finish e n (f s.body) := by
  obtain ⟨h1, h2, h3, h4, h5, h6⟩ := (coreReady_iff s n).1 h
  have h6' : checkWord e n ((s.core n).pc.toNat / 8 * 8) s.body = (false, s.body) :=
    checkWord_clean (by rw [bank_of_word]; exact h6)
  simp only [State.core, State.bankAt] at *
  have h3' : ((s.body.site n).core.dslot.isNone && (s.body.site n).core.interrupt.isSome) = false := by
    cases hd : (s.body.site n).core.dslot <;> simp_all
  have h1' : ¬ 408 ≤ n := by omega
  have hp : ((s.body.site n).bank ((s.body.site n).core.pc.toNat / 65536)).powered = true := by
    simp [Bank.powered, h5]
  simp only [coreGo, h1', h2, h3', h4, h5, h6', hp]
  simp <;> rfl

/-- An instruction of a core that executes it to its end. -/
theorem coreGo_runs {e : Env} {n word : Nat} {pre : CoreSt → Option Nat} {f : Body → CoreRes} {s : State}
    (h : s.coreRuns n = true) (hp : pre (s.core n) = none) :
    coreGo e n word {} pre f s.body = finish e n (f s.body) := by
  simp only [State.coreRuns, State.loopFits, Bool.and_eq_true, Bool.not_eq_true', Bool.and_eq_false_iff] at h
  rw [coreGo_ready h.1, hp]
  rcases h.2 with h | h <;> simp [h]

/-- The same at a place where every instruction may stand. -/
theorem coreGo_alone {e : Env} {n word : Nat} {p : Place} {pre : CoreSt → Option Nat} {f : Body → CoreRes} {s : State}
    (h : s.coreRunsAlone n = true) (hp : pre (s.core n) = none) :
    coreGo e n word p pre f s.body = finish e n (f s.body) := by
  simp only [State.coreRunsAlone, Bool.and_eq_true, Bool.not_eq_true'] at h
  rw [coreGo_ready h.1.1, hp]
  simp [h.2, Option.isNone_iff_eq_none.1 h.1.2]

/-- An instruction that changes only its core, executed to its end. -/
theorem coreDo_runs {e : Env} {n word : Nat} {pre : CoreSt → Option Nat} {f : CoreSt → CoreSt} {s : State}
    (h : s.coreRuns n = true) (hp : pre (s.core n) = none) :
    s.withBody (coreDo e n word pre f s.body) = s.onCore n fun c => (f c).retire := by
  rw [coreDo, coreGo_runs h hp]
  simp [finish, State.onCore, State.onSite]

end Sys2Proof.Machine
end

