-- ==== Sys2Proof/Laws/Core.lean ====
section
/-! SUPPORT. The fields of a core after the updates its instructions share: which of them each update leaves. -/
namespace Sys2Proof.Machine

@[simp] theorem CoreSt.boundary_x (c : CoreSt) : c.boundary.x = c.x := by unfold CoreSt.boundary; split <;> rfl
@[simp] theorem CoreSt.boundary_f (c : CoreSt) : c.boundary.f = c.f := by unfold CoreSt.boundary; split <;> rfl
@[simp] theorem CoreSt.boundary_fmode (c : CoreSt) : c.boundary.fmode = c.fmode := by unfold CoreSt.boundary; split <;> rfl
@[simp] theorem CoreSt.boundary_shOld (c : CoreSt) : c.boundary.shOld = c.shOld := by unfold CoreSt.boundary; split <;> rfl
@[simp] theorem CoreSt.boundary_fflags (c : CoreSt) : c.boundary.fflags = c.fflags := by unfold CoreSt.boundary; split <;> rfl
@[simp] theorem CoreSt.boundary_step (c : CoreSt) : c.boundary.step = c.step := by unfold CoreSt.boundary; split <;> rfl
@[simp] theorem CoreSt.boundary_fprc (c : CoreSt) : c.boundary.fprc = c.fprc := by unfold CoreSt.boundary; split <;> rfl
@[simp] theorem CoreSt.boundary_cc (c : CoreSt) : c.boundary.cc = c.cc := by unfold CoreSt.boundary; split <;> rfl
@[simp] theorem CoreSt.boundary_epend (c : CoreSt) : c.boundary.epend = c.epend := by unfold CoreSt.boundary; split <;> rfl
@[simp] theorem CoreSt.boundary_epc (c : CoreSt) : c.boundary.epc = c.epc := by unfold CoreSt.boundary; split <;> rfl
@[simp] theorem CoreSt.boundary_excInfo (c : CoreSt) : c.boundary.excInfo = c.excInfo := by unfold CoreSt.boundary; split <;> rfl
@[simp] theorem CoreSt.boundary_excAddr (c : CoreSt) : c.boundary.excAddr = c.excAddr := by unfold CoreSt.boundary; split <;> rfl
@[simp] theorem CoreSt.boundary_pie (c : CoreSt) : c.boundary.pie = c.pie := by unfold CoreSt.boundary; split <;> rfl
@[simp] theorem CoreSt.boundary_ie (c : CoreSt) : c.boundary.ie = c.ie := by unfold CoreSt.boundary; split <;> rfl
@[simp] theorem CoreSt.boundary_ppriv (c : CoreSt) : c.boundary.ppriv = c.ppriv := by unfold CoreSt.boundary; split <;> rfl
@[simp] theorem CoreSt.boundary_priv (c : CoreSt) : c.boundary.priv = c.priv := by unfold CoreSt.boundary; split <;> rfl
@[simp] theorem CoreSt.boundary_evbase (c : CoreSt) : c.boundary.evbase = c.evbase := by unfold CoreSt.boundary; split <;> rfl
@[simp] theorem CoreSt.boundary_scratch (c : CoreSt) : c.boundary.scratch = c.scratch := by unfold CoreSt.boundary; split <;> rfl
@[simp] theorem CoreSt.boundary_ien (c : CoreSt) : c.boundary.ien = c.ien := by unfold CoreSt.boundary; split <;> rfl
@[simp] theorem CoreSt.boundary_ipend (c : CoreSt) : c.boundary.ipend = c.ipend := by unfold CoreSt.boundary; split <;> rfl
@[simp] theorem CoreSt.boundary_preemptSquad (c : CoreSt) : c.boundary.preemptSquad = c.preemptSquad := by unfold CoreSt.boundary; split <;> rfl
@[simp] theorem CoreSt.boundary_wait (c : CoreSt) : c.boundary.wait = c.wait := by unfold CoreSt.boundary; split <;> rfl
@[simp] theorem CoreSt.boundary_issue (c : CoreSt) : c.boundary.issue = c.issue := by unfold CoreSt.boundary; split <;> rfl
@[simp] theorem CoreSt.boundary_mstall (c : CoreSt) : c.boundary.mstall = c.mstall := by unfold CoreSt.boundary; split <;> rfl
@[simp] theorem CoreSt.boundary_fresh (c : CoreSt) : c.boundary.fresh = c.fresh := by unfold CoreSt.boundary; split <;> rfl
@[simp] theorem CoreSt.boundary_double (c : CoreSt) : c.boundary.double = c.double := by unfold CoreSt.boundary; split <;> rfl
@[simp] theorem CoreSt.boundary_dds (c : CoreSt) : c.boundary.dds = c.dds := by unfold CoreSt.boundary; split <;> rfl
@[simp] theorem CoreSt.boundary_late (c : CoreSt) : c.boundary.late = c.late := by unfold CoreSt.boundary; split <;> rfl
@[simp] theorem CoreSt.boundary_lastCause (c : CoreSt) : c.boundary.lastCause = c.lastCause := by unfold CoreSt.boundary; split <;> rfl
@[simp] theorem CoreSt.boundary_pc (c : CoreSt) : c.boundary.pc = c.pc := by unfold CoreSt.boundary; split <;> rfl
@[simp] theorem CoreSt.boundary_jobLoop (c : CoreSt) : c.boundary.jobLoop = c.jobLoop := by unfold CoreSt.boundary; split <;> rfl
@[simp] theorem CoreSt.boundary_superLoop (c : CoreSt) : c.boundary.superLoop = c.superLoop := by unfold CoreSt.boundary; split <;> rfl
@[simp] theorem CoreSt.boundary_dslot (c : CoreSt) : c.boundary.dslot = c.dslot := by unfold CoreSt.boundary; split <;> rfl
@[simp] theorem CoreSt.boundary_shLeft (c : CoreSt) : c.boundary.shLeft = c.shLeft := by unfold CoreSt.boundary; split <;> rfl
@[simp] theorem CoreSt.setLoops_x (c : CoreSt) (l : LoopBank) : (c.setLoops l).x = c.x := by
  unfold CoreSt.setLoops; split <;> rfl
@[simp] theorem CoreSt.setLoops_f (c : CoreSt) (l : LoopBank) : (c.setLoops l).f = c.f := by
  unfold CoreSt.setLoops; split <;> rfl
@[simp] theorem CoreSt.setLoops_fmode (c : CoreSt) (l : LoopBank) : (c.setLoops l).fmode = c.fmode := by
  unfold CoreSt.setLoops; split <;> rfl
@[simp] theorem CoreSt.setLoops_shOld (c : CoreSt) (l : LoopBank) : (c.setLoops l).shOld = c.shOld := by
  unfold CoreSt.setLoops; split <;> rfl
@[simp] theorem CoreSt.setLoops_fflags (c : CoreSt) (l : LoopBank) : (c.setLoops l).fflags = c.fflags := by
  unfold CoreSt.setLoops; split <;> rfl
@[simp] theorem CoreSt.setLoops_step (c : CoreSt) (l : LoopBank) : (c.setLoops l).step = c.step := by
  unfold CoreSt.setLoops; split <;> rfl
@[simp] theorem CoreSt.setLoops_fprc (c : CoreSt) (l : LoopBank) : (c.setLoops l).fprc = c.fprc := by
  unfold CoreSt.setLoops; split <;> rfl
@[simp] theorem CoreSt.setLoops_cc (c : CoreSt) (l : LoopBank) : (c.setLoops l).cc = c.cc := by
  unfold CoreSt.setLoops; split <;> rfl
@[simp] theorem CoreSt.setLoops_epend (c : CoreSt) (l : LoopBank) : (c.setLoops l).epend = c.epend := by
  unfold CoreSt.setLoops; split <;> rfl
@[simp] theorem CoreSt.setLoops_epc (c : CoreSt) (l : LoopBank) : (c.setLoops l).epc = c.epc := by
  unfold CoreSt.setLoops; split <;> rfl
@[simp] theorem CoreSt.setLoops_excInfo (c : CoreSt) (l : LoopBank) : (c.setLoops l).excInfo = c.excInfo := by
  unfold CoreSt.setLoops; split <;> rfl
@[simp] theorem CoreSt.setLoops_excAddr (c : CoreSt) (l : LoopBank) : (c.setLoops l).excAddr = c.excAddr := by
  unfold CoreSt.setLoops; split <;> rfl
@[simp] theorem CoreSt.setLoops_pie (c : CoreSt) (l : LoopBank) : (c.setLoops l).pie = c.pie := by
  unfold CoreSt.setLoops; split <;> rfl
@[simp] theorem CoreSt.setLoops_ie (c : CoreSt) (l : LoopBank) : (c.setLoops l).ie = c.ie := by
  unfold CoreSt.setLoops; split <;> rfl
@[simp] theorem CoreSt.setLoops_ppriv (c : CoreSt) (l : LoopBank) : (c.setLoops l).ppriv = c.ppriv := by
  unfold CoreSt.setLoops; split <;> rfl
@[simp] theorem CoreSt.setLoops_priv (c : CoreSt) (l : LoopBank) : (c.setLoops l).priv = c.priv := by
  unfold CoreSt.setLoops; split <;> rfl
@[simp] theorem CoreSt.setLoops_evbase (c : CoreSt) (l : LoopBank) : (c.setLoops l).evbase = c.evbase := by
  unfold CoreSt.setLoops; split <;> rfl
@[simp] theorem CoreSt.setLoops_scratch (c : CoreSt) (l : LoopBank) : (c.setLoops l).scratch = c.scratch := by
  unfold CoreSt.setLoops; split <;> rfl
@[simp] theorem CoreSt.setLoops_ien (c : CoreSt) (l : LoopBank) : (c.setLoops l).ien = c.ien := by
  unfold CoreSt.setLoops; split <;> rfl
@[simp] theorem CoreSt.setLoops_ipend (c : CoreSt) (l : LoopBank) : (c.setLoops l).ipend = c.ipend := by
  unfold CoreSt.setLoops; split <;> rfl
@[simp] theorem CoreSt.setLoops_preemptSquad (c : CoreSt) (l : LoopBank) : (c.setLoops l).preemptSquad = c.preemptSquad := by
  unfold CoreSt.setLoops; split <;> rfl
@[simp] theorem CoreSt.setLoops_wait (c : CoreSt) (l : LoopBank) : (c.setLoops l).wait = c.wait := by
  unfold CoreSt.setLoops; split <;> rfl
@[simp] theorem CoreSt.setLoops_issue (c : CoreSt) (l : LoopBank) : (c.setLoops l).issue = c.issue := by
  unfold CoreSt.setLoops; split <;> rfl
@[simp] theorem CoreSt.setLoops_mstall (c : CoreSt) (l : LoopBank) : (c.setLoops l).mstall = c.mstall := by
  unfold CoreSt.setLoops; split <;> rfl
@[simp] theorem CoreSt.setLoops_fresh (c : CoreSt) (l : LoopBank) : (c.setLoops l).fresh = c.fresh := by
  unfold CoreSt.setLoops; split <;> rfl
@[simp] theorem CoreSt.setLoops_double (c : CoreSt) (l : LoopBank) : (c.setLoops l).double = c.double := by
  unfold CoreSt.setLoops; split <;> rfl
@[simp] theorem CoreSt.setLoops_dds (c : CoreSt) (l : LoopBank) : (c.setLoops l).dds = c.dds := by
  unfold CoreSt.setLoops; split <;> rfl
@[simp] theorem CoreSt.setLoops_late (c : CoreSt) (l : LoopBank) : (c.setLoops l).late = c.late := by
  unfold CoreSt.setLoops; split <;> rfl
@[simp] theorem CoreSt.setLoops_lastCause (c : CoreSt) (l : LoopBank) : (c.setLoops l).lastCause = c.lastCause := by
  unfold CoreSt.setLoops; split <;> rfl
@[simp] theorem CoreSt.setLoops_pc (c : CoreSt) (l : LoopBank) : (c.setLoops l).pc = c.pc := by
  unfold CoreSt.setLoops; split <;> rfl
@[simp] theorem CoreSt.setLoops_dslot (c : CoreSt) (l : LoopBank) : (c.setLoops l).dslot = c.dslot := by
  unfold CoreSt.setLoops; split <;> rfl
@[simp] theorem CoreSt.setLoops_shLeft (c : CoreSt) (l : LoopBank) : (c.setLoops l).shLeft = c.shLeft := by
  unfold CoreSt.setLoops; split <;> rfl
@[simp] theorem CoreSt.setLoops_stopped (c : CoreSt) (l : LoopBank) : (c.setLoops l).stopped = c.stopped := by
  unfold CoreSt.setLoops; split <;> rfl
@[simp] theorem CoreSt.setLoops_stopReq (c : CoreSt) (l : LoopBank) : (c.setLoops l).stopReq = c.stopReq := by
  unfold CoreSt.setLoops; split <;> rfl
@[simp] theorem CoreSt.shadowStep_x (c : CoreSt) : c.shadowStep.x = c.x := rfl
@[simp] theorem CoreSt.shadowStep_f (c : CoreSt) : c.shadowStep.f = c.f := rfl
@[simp] theorem CoreSt.shadowStep_fmode (c : CoreSt) : c.shadowStep.fmode = c.fmode := rfl
@[simp] theorem CoreSt.shadowStep_shOld (c : CoreSt) : c.shadowStep.shOld = c.shOld := rfl
@[simp] theorem CoreSt.shadowStep_fflags (c : CoreSt) : c.shadowStep.fflags = c.fflags := rfl
@[simp] theorem CoreSt.shadowStep_step (c : CoreSt) : c.shadowStep.step = c.step := rfl
@[simp] theorem CoreSt.shadowStep_fprc (c : CoreSt) : c.shadowStep.fprc = c.fprc := rfl
@[simp] theorem CoreSt.shadowStep_cc (c : CoreSt) : c.shadowStep.cc = c.cc := rfl
@[simp] theorem CoreSt.shadowStep_epend (c : CoreSt) : c.shadowStep.epend = c.epend := rfl
@[simp] theorem CoreSt.shadowStep_epc (c : CoreSt) : c.shadowStep.epc = c.epc := rfl
@[simp] theorem CoreSt.shadowStep_excInfo (c : CoreSt) : c.shadowStep.excInfo = c.excInfo := rfl
@[simp] theorem CoreSt.shadowStep_excAddr (c : CoreSt) : c.shadowStep.excAddr = c.excAddr := rfl
@[simp] theorem CoreSt.shadowStep_pie (c : CoreSt) : c.shadowStep.pie = c.pie := rfl
@[simp] theorem CoreSt.shadowStep_ie (c : CoreSt) : c.shadowStep.ie = c.ie := rfl
@[simp] theorem CoreSt.shadowStep_ppriv (c : CoreSt) : c.shadowStep.ppriv = c.ppriv := rfl
@[simp] theorem CoreSt.shadowStep_priv (c : CoreSt) : c.shadowStep.priv = c.priv := rfl
@[simp] theorem CoreSt.shadowStep_evbase (c : CoreSt) : c.shadowStep.evbase = c.evbase := rfl
@[simp] theorem CoreSt.shadowStep_scratch (c : CoreSt) : c.shadowStep.scratch = c.scratch := rfl
@[simp] theorem CoreSt.shadowStep_ien (c : CoreSt) : c.shadowStep.ien = c.ien := rfl
@[simp] theorem CoreSt.shadowStep_ipend (c : CoreSt) : c.shadowStep.ipend = c.ipend := rfl
@[simp] theorem CoreSt.shadowStep_preemptSquad (c : CoreSt) : c.shadowStep.preemptSquad = c.preemptSquad := rfl
@[simp] theorem CoreSt.shadowStep_wait (c : CoreSt) : c.shadowStep.wait = c.wait := rfl
@[simp] theorem CoreSt.shadowStep_issue (c : CoreSt) : c.shadowStep.issue = c.issue := rfl
@[simp] theorem CoreSt.shadowStep_mstall (c : CoreSt) : c.shadowStep.mstall = c.mstall := rfl
@[simp] theorem CoreSt.shadowStep_fresh (c : CoreSt) : c.shadowStep.fresh = c.fresh := rfl
@[simp] theorem CoreSt.shadowStep_double (c : CoreSt) : c.shadowStep.double = c.double := rfl
@[simp] theorem CoreSt.shadowStep_dds (c : CoreSt) : c.shadowStep.dds = c.dds := rfl
@[simp] theorem CoreSt.shadowStep_late (c : CoreSt) : c.shadowStep.late = c.late := rfl
@[simp] theorem CoreSt.shadowStep_lastCause (c : CoreSt) : c.shadowStep.lastCause = c.lastCause := rfl
@[simp] theorem CoreSt.shadowStep_pc (c : CoreSt) : c.shadowStep.pc = c.pc := rfl
@[simp] theorem CoreSt.shadowStep_dslot (c : CoreSt) : c.shadowStep.dslot = c.dslot := rfl
@[simp] theorem CoreSt.shadowStep_jobLoop (c : CoreSt) : c.shadowStep.jobLoop = c.jobLoop := rfl
@[simp] theorem CoreSt.shadowStep_superLoop (c : CoreSt) : c.shadowStep.superLoop = c.superLoop := rfl
@[simp] theorem CoreSt.shadowStep_stopped (c : CoreSt) : c.shadowStep.stopped = c.stopped := rfl
@[simp] theorem CoreSt.shadowStep_stopReq (c : CoreSt) : c.shadowStep.stopReq = c.stopReq := rfl
@[simp] theorem CoreSt.loops_setLoops (c : CoreSt) (l : LoopBank) : (c.setLoops l).loops = l := by
  unfold CoreSt.setLoops CoreSt.loops; split <;> simp_all
@[simp] theorem CoreSt.loops_boundary (c : CoreSt) : c.boundary.loops = c.loops := by simp [CoreSt.loops]
@[simp] theorem CoreSt.loops_shadowStep (c : CoreSt) : c.shadowStep.loops = c.loops := rfl
@[simp] theorem CoreSt.loops_jump (c : CoreSt) (p : Pc) (d : Option DelaySlot) :
    CoreSt.loops { c with pc := p, dslot := d } = c.loops := rfl
@[simp] theorem CoreSt.loops_goto (c : CoreSt) (p : Pc) : CoreSt.loops { c with pc := p } = c.loops := rfl
@[simp] theorem CoreSt.retire_x (c : CoreSt) : c.retire.x = c.x := by
  simp only [CoreSt.retire]; split <;> (try split) <;> simp
@[simp] theorem CoreSt.retire_f (c : CoreSt) : c.retire.f = c.f := by
  simp only [CoreSt.retire]; split <;> (try split) <;> simp
@[simp] theorem CoreSt.retire_fmode (c : CoreSt) : c.retire.fmode = c.fmode := by
  simp only [CoreSt.retire]; split <;> (try split) <;> simp
@[simp] theorem CoreSt.retire_shOld (c : CoreSt) : c.retire.shOld = c.shOld := by
  simp only [CoreSt.retire]; split <;> (try split) <;> simp
@[simp] theorem CoreSt.retire_fflags (c : CoreSt) : c.retire.fflags = c.fflags := by
  simp only [CoreSt.retire]; split <;> (try split) <;> simp
@[simp] theorem CoreSt.retire_step (c : CoreSt) : c.retire.step = c.step := by
  simp only [CoreSt.retire]; split <;> (try split) <;> simp
@[simp] theorem CoreSt.retire_fprc (c : CoreSt) : c.retire.fprc = c.fprc := by
  simp only [CoreSt.retire]; split <;> (try split) <;> simp
@[simp] theorem CoreSt.retire_cc (c : CoreSt) : c.retire.cc = c.cc := by
  simp only [CoreSt.retire]; split <;> (try split) <;> simp
@[simp] theorem CoreSt.retire_epend (c : CoreSt) : c.retire.epend = c.epend := by
  simp only [CoreSt.retire]; split <;> (try split) <;> simp
@[simp] theorem CoreSt.retire_epc (c : CoreSt) : c.retire.epc = c.epc := by
  simp only [CoreSt.retire]; split <;> (try split) <;> simp
@[simp] theorem CoreSt.retire_excInfo (c : CoreSt) : c.retire.excInfo = c.excInfo := by
  simp only [CoreSt.retire]; split <;> (try split) <;> simp
@[simp] theorem CoreSt.retire_excAddr (c : CoreSt) : c.retire.excAddr = c.excAddr := by
  simp only [CoreSt.retire]; split <;> (try split) <;> simp
@[simp] theorem CoreSt.retire_pie (c : CoreSt) : c.retire.pie = c.pie := by
  simp only [CoreSt.retire]; split <;> (try split) <;> simp
@[simp] theorem CoreSt.retire_ie (c : CoreSt) : c.retire.ie = c.ie := by
  simp only [CoreSt.retire]; split <;> (try split) <;> simp
@[simp] theorem CoreSt.retire_ppriv (c : CoreSt) : c.retire.ppriv = c.ppriv := by
  simp only [CoreSt.retire]; split <;> (try split) <;> simp
@[simp] theorem CoreSt.retire_priv (c : CoreSt) : c.retire.priv = c.priv := by
  simp only [CoreSt.retire]; split <;> (try split) <;> simp
@[simp] theorem CoreSt.retire_evbase (c : CoreSt) : c.retire.evbase = c.evbase := by
  simp only [CoreSt.retire]; split <;> (try split) <;> simp
@[simp] theorem CoreSt.retire_scratch (c : CoreSt) : c.retire.scratch = c.scratch := by
  simp only [CoreSt.retire]; split <;> (try split) <;> simp
@[simp] theorem CoreSt.retire_ien (c : CoreSt) : c.retire.ien = c.ien := by
  simp only [CoreSt.retire]; split <;> (try split) <;> simp
@[simp] theorem CoreSt.retire_ipend (c : CoreSt) : c.retire.ipend = c.ipend := by
  simp only [CoreSt.retire]; split <;> (try split) <;> simp
@[simp] theorem CoreSt.retire_preemptSquad (c : CoreSt) : c.retire.preemptSquad = c.preemptSquad := by
  simp only [CoreSt.retire]; split <;> (try split) <;> simp
@[simp] theorem CoreSt.retire_wait (c : CoreSt) : c.retire.wait = c.wait := by
  simp only [CoreSt.retire]; split <;> (try split) <;> simp
@[simp] theorem CoreSt.retire_issue (c : CoreSt) : c.retire.issue = c.issue := by
  simp only [CoreSt.retire]; split <;> (try split) <;> simp
@[simp] theorem CoreSt.retire_mstall (c : CoreSt) : c.retire.mstall = c.mstall := by
  simp only [CoreSt.retire]; split <;> (try split) <;> simp
@[simp] theorem CoreSt.retire_fresh (c : CoreSt) : c.retire.fresh = c.fresh := by
  simp only [CoreSt.retire]; split <;> (try split) <;> simp
@[simp] theorem CoreSt.retire_double (c : CoreSt) : c.retire.double = c.double := by
  simp only [CoreSt.retire]; split <;> (try split) <;> simp
@[simp] theorem CoreSt.retire_dds (c : CoreSt) : c.retire.dds = c.dds := by
  simp only [CoreSt.retire]; split <;> (try split) <;> simp
@[simp] theorem CoreSt.retire_late (c : CoreSt) : c.retire.late = c.late := by
  simp only [CoreSt.retire]; split <;> (try split) <;> simp
@[simp] theorem CoreSt.retire_lastCause (c : CoreSt) : c.retire.lastCause = c.lastCause := by
  simp only [CoreSt.retire]; split <;> (try split) <;> simp
@[simp] theorem CoreSt.setX_f (c : CoreSt) (r : RegNo) (v : Word64) : (c.setX r v).f = c.f := by
  unfold CoreSt.setX; split <;> rfl
@[simp] theorem CoreSt.setX_fmode (c : CoreSt) (r : RegNo) (v : Word64) : (c.setX r v).fmode = c.fmode := by
  unfold CoreSt.setX; split <;> rfl
@[simp] theorem CoreSt.setX_shOld (c : CoreSt) (r : RegNo) (v : Word64) : (c.setX r v).shOld = c.shOld := by
  unfold CoreSt.setX; split <;> rfl
@[simp] theorem CoreSt.setX_fflags (c : CoreSt) (r : RegNo) (v : Word64) : (c.setX r v).fflags = c.fflags := by
  unfold CoreSt.setX; split <;> rfl
@[simp] theorem CoreSt.setX_step (c : CoreSt) (r : RegNo) (v : Word64) : (c.setX r v).step = c.step := by
  unfold CoreSt.setX; split <;> rfl
@[simp] theorem CoreSt.setX_fprc (c : CoreSt) (r : RegNo) (v : Word64) : (c.setX r v).fprc = c.fprc := by
  unfold CoreSt.setX; split <;> rfl
@[simp] theorem CoreSt.setX_cc (c : CoreSt) (r : RegNo) (v : Word64) : (c.setX r v).cc = c.cc := by
  unfold CoreSt.setX; split <;> rfl
@[simp] theorem CoreSt.setX_epend (c : CoreSt) (r : RegNo) (v : Word64) : (c.setX r v).epend = c.epend := by
  unfold CoreSt.setX; split <;> rfl
@[simp] theorem CoreSt.setX_epc (c : CoreSt) (r : RegNo) (v : Word64) : (c.setX r v).epc = c.epc := by
  unfold CoreSt.setX; split <;> rfl
@[simp] theorem CoreSt.setX_excInfo (c : CoreSt) (r : RegNo) (v : Word64) : (c.setX r v).excInfo = c.excInfo := by
  unfold CoreSt.setX; split <;> rfl
@[simp] theorem CoreSt.setX_excAddr (c : CoreSt) (r : RegNo) (v : Word64) : (c.setX r v).excAddr = c.excAddr := by
  unfold CoreSt.setX; split <;> rfl
@[simp] theorem CoreSt.setX_pie (c : CoreSt) (r : RegNo) (v : Word64) : (c.setX r v).pie = c.pie := by
  unfold CoreSt.setX; split <;> rfl
@[simp] theorem CoreSt.setX_ie (c : CoreSt) (r : RegNo) (v : Word64) : (c.setX r v).ie = c.ie := by
  unfold CoreSt.setX; split <;> rfl
@[simp] theorem CoreSt.setX_ppriv (c : CoreSt) (r : RegNo) (v : Word64) : (c.setX r v).ppriv = c.ppriv := by
  unfold CoreSt.setX; split <;> rfl
@[simp] theorem CoreSt.setX_priv (c : CoreSt) (r : RegNo) (v : Word64) : (c.setX r v).priv = c.priv := by
  unfold CoreSt.setX; split <;> rfl
@[simp] theorem CoreSt.setX_evbase (c : CoreSt) (r : RegNo) (v : Word64) : (c.setX r v).evbase = c.evbase := by
  unfold CoreSt.setX; split <;> rfl
@[simp] theorem CoreSt.setX_scratch (c : CoreSt) (r : RegNo) (v : Word64) : (c.setX r v).scratch = c.scratch := by
  unfold CoreSt.setX; split <;> rfl
@[simp] theorem CoreSt.setX_ien (c : CoreSt) (r : RegNo) (v : Word64) : (c.setX r v).ien = c.ien := by
  unfold CoreSt.setX; split <;> rfl
@[simp] theorem CoreSt.setX_ipend (c : CoreSt) (r : RegNo) (v : Word64) : (c.setX r v).ipend = c.ipend := by
  unfold CoreSt.setX; split <;> rfl
@[simp] theorem CoreSt.setX_preemptSquad (c : CoreSt) (r : RegNo) (v : Word64) : (c.setX r v).preemptSquad = c.preemptSquad := by
  unfold CoreSt.setX; split <;> rfl
@[simp] theorem CoreSt.setX_wait (c : CoreSt) (r : RegNo) (v : Word64) : (c.setX r v).wait = c.wait := by
  unfold CoreSt.setX; split <;> rfl
@[simp] theorem CoreSt.setX_issue (c : CoreSt) (r : RegNo) (v : Word64) : (c.setX r v).issue = c.issue := by
  unfold CoreSt.setX; split <;> rfl
@[simp] theorem CoreSt.setX_mstall (c : CoreSt) (r : RegNo) (v : Word64) : (c.setX r v).mstall = c.mstall := by
  unfold CoreSt.setX; split <;> rfl
@[simp] theorem CoreSt.setX_fresh (c : CoreSt) (r : RegNo) (v : Word64) : (c.setX r v).fresh = c.fresh := by
  unfold CoreSt.setX; split <;> rfl
@[simp] theorem CoreSt.setX_double (c : CoreSt) (r : RegNo) (v : Word64) : (c.setX r v).double = c.double := by
  unfold CoreSt.setX; split <;> rfl
@[simp] theorem CoreSt.setX_dds (c : CoreSt) (r : RegNo) (v : Word64) : (c.setX r v).dds = c.dds := by
  unfold CoreSt.setX; split <;> rfl
@[simp] theorem CoreSt.setX_late (c : CoreSt) (r : RegNo) (v : Word64) : (c.setX r v).late = c.late := by
  unfold CoreSt.setX; split <;> rfl
@[simp] theorem CoreSt.setX_lastCause (c : CoreSt) (r : RegNo) (v : Word64) : (c.setX r v).lastCause = c.lastCause := by
  unfold CoreSt.setX; split <;> rfl
@[simp] theorem CoreSt.setX_pc (c : CoreSt) (r : RegNo) (v : Word64) : (c.setX r v).pc = c.pc := by
  unfold CoreSt.setX; split <;> rfl
@[simp] theorem CoreSt.setX_dslot (c : CoreSt) (r : RegNo) (v : Word64) : (c.setX r v).dslot = c.dslot := by
  unfold CoreSt.setX; split <;> rfl
@[simp] theorem CoreSt.setX_jobLoop (c : CoreSt) (r : RegNo) (v : Word64) : (c.setX r v).jobLoop = c.jobLoop := by
  unfold CoreSt.setX; split <;> rfl
@[simp] theorem CoreSt.setX_superLoop (c : CoreSt) (r : RegNo) (v : Word64) : (c.setX r v).superLoop = c.superLoop := by
  unfold CoreSt.setX; split <;> rfl
@[simp] theorem CoreSt.setX_shLeft (c : CoreSt) (r : RegNo) (v : Word64) : (c.setX r v).shLeft = c.shLeft := by
  unfold CoreSt.setX; split <;> rfl
@[simp] theorem CoreSt.setX_stopped (c : CoreSt) (r : RegNo) (v : Word64) : (c.setX r v).stopped = c.stopped := by
  unfold CoreSt.setX; split <;> rfl
@[simp] theorem CoreSt.setX_stopReq (c : CoreSt) (r : RegNo) (v : Word64) : (c.setX r v).stopReq = c.stopReq := by
  unfold CoreSt.setX; split <;> rfl
@[simp] theorem CoreSt.setF_x (c : CoreSt) (r : RegNo) (v : Word64) : (c.setF r v).x = c.x := rfl
@[simp] theorem CoreSt.setF_fmode (c : CoreSt) (r : RegNo) (v : Word64) : (c.setF r v).fmode = c.fmode := rfl
@[simp] theorem CoreSt.setF_shOld (c : CoreSt) (r : RegNo) (v : Word64) : (c.setF r v).shOld = c.shOld := rfl
@[simp] theorem CoreSt.setF_fflags (c : CoreSt) (r : RegNo) (v : Word64) : (c.setF r v).fflags = c.fflags := rfl
@[simp] theorem CoreSt.setF_step (c : CoreSt) (r : RegNo) (v : Word64) : (c.setF r v).step = c.step := rfl
@[simp] theorem CoreSt.setF_fprc (c : CoreSt) (r : RegNo) (v : Word64) : (c.setF r v).fprc = c.fprc := rfl
@[simp] theorem CoreSt.setF_cc (c : CoreSt) (r : RegNo) (v : Word64) : (c.setF r v).cc = c.cc := rfl
@[simp] theorem CoreSt.setF_epend (c : CoreSt) (r : RegNo) (v : Word64) : (c.setF r v).epend = c.epend := rfl
@[simp] theorem CoreSt.setF_epc (c : CoreSt) (r : RegNo) (v : Word64) : (c.setF r v).epc = c.epc := rfl
@[simp] theorem CoreSt.setF_excInfo (c : CoreSt) (r : RegNo) (v : Word64) : (c.setF r v).excInfo = c.excInfo := rfl
@[simp] theorem CoreSt.setF_excAddr (c : CoreSt) (r : RegNo) (v : Word64) : (c.setF r v).excAddr = c.excAddr := rfl
@[simp] theorem CoreSt.setF_pie (c : CoreSt) (r : RegNo) (v : Word64) : (c.setF r v).pie = c.pie := rfl
@[simp] theorem CoreSt.setF_ie (c : CoreSt) (r : RegNo) (v : Word64) : (c.setF r v).ie = c.ie := rfl
@[simp] theorem CoreSt.setF_ppriv (c : CoreSt) (r : RegNo) (v : Word64) : (c.setF r v).ppriv = c.ppriv := rfl
@[simp] theorem CoreSt.setF_priv (c : CoreSt) (r : RegNo) (v : Word64) : (c.setF r v).priv = c.priv := rfl
@[simp] theorem CoreSt.setF_evbase (c : CoreSt) (r : RegNo) (v : Word64) : (c.setF r v).evbase = c.evbase := rfl
@[simp] theorem CoreSt.setF_scratch (c : CoreSt) (r : RegNo) (v : Word64) : (c.setF r v).scratch = c.scratch := rfl
@[simp] theorem CoreSt.setF_ien (c : CoreSt) (r : RegNo) (v : Word64) : (c.setF r v).ien = c.ien := rfl
@[simp] theorem CoreSt.setF_ipend (c : CoreSt) (r : RegNo) (v : Word64) : (c.setF r v).ipend = c.ipend := rfl
@[simp] theorem CoreSt.setF_preemptSquad (c : CoreSt) (r : RegNo) (v : Word64) : (c.setF r v).preemptSquad = c.preemptSquad := rfl
@[simp] theorem CoreSt.setF_wait (c : CoreSt) (r : RegNo) (v : Word64) : (c.setF r v).wait = c.wait := rfl
@[simp] theorem CoreSt.setF_issue (c : CoreSt) (r : RegNo) (v : Word64) : (c.setF r v).issue = c.issue := rfl
@[simp] theorem CoreSt.setF_mstall (c : CoreSt) (r : RegNo) (v : Word64) : (c.setF r v).mstall = c.mstall := rfl
@[simp] theorem CoreSt.setF_fresh (c : CoreSt) (r : RegNo) (v : Word64) : (c.setF r v).fresh = c.fresh := rfl
@[simp] theorem CoreSt.setF_double (c : CoreSt) (r : RegNo) (v : Word64) : (c.setF r v).double = c.double := rfl
@[simp] theorem CoreSt.setF_dds (c : CoreSt) (r : RegNo) (v : Word64) : (c.setF r v).dds = c.dds := rfl
@[simp] theorem CoreSt.setF_late (c : CoreSt) (r : RegNo) (v : Word64) : (c.setF r v).late = c.late := rfl
@[simp] theorem CoreSt.setF_lastCause (c : CoreSt) (r : RegNo) (v : Word64) : (c.setF r v).lastCause = c.lastCause := rfl
@[simp] theorem CoreSt.setF_pc (c : CoreSt) (r : RegNo) (v : Word64) : (c.setF r v).pc = c.pc := rfl
@[simp] theorem CoreSt.setF_dslot (c : CoreSt) (r : RegNo) (v : Word64) : (c.setF r v).dslot = c.dslot := rfl
@[simp] theorem CoreSt.setF_jobLoop (c : CoreSt) (r : RegNo) (v : Word64) : (c.setF r v).jobLoop = c.jobLoop := rfl
@[simp] theorem CoreSt.setF_superLoop (c : CoreSt) (r : RegNo) (v : Word64) : (c.setF r v).superLoop = c.superLoop := rfl
@[simp] theorem CoreSt.setF_shLeft (c : CoreSt) (r : RegNo) (v : Word64) : (c.setF r v).shLeft = c.shLeft := rfl
@[simp] theorem CoreSt.setF_stopped (c : CoreSt) (r : RegNo) (v : Word64) : (c.setF r v).stopped = c.stopped := rfl
@[simp] theorem CoreSt.setF_stopReq (c : CoreSt) (r : RegNo) (v : Word64) : (c.setF r v).stopReq = c.stopReq := rfl
@[simp] theorem CoreSt.loops_setX (c : CoreSt) (r : RegNo) (v : Word64) : (c.setX r v).loops = c.loops := by simp [CoreSt.loops]
@[simp] theorem CoreSt.getX_retire (c : CoreSt) : c.retire.getX = c.getX := by funext r; simp [CoreSt.getX]
@[simp] theorem CoreSt.getF_retire (c : CoreSt) : c.retire.getF = c.getF := by funext r; simp [CoreSt.getF]
@[simp] theorem CoreSt.getF_setX (c : CoreSt) (r : RegNo) (v : Word64) : (c.setX r v).getF = c.getF := by
  funext q; simp [CoreSt.getF]

/-- Outside a delay slot the loop decision says where a retiring instruction goes (R178). -/
theorem CoreSt.retire_straight {c : CoreSt} (h : c.dslot = none) :
    c.retire.pc = (c.loops.decide c.pc).2 ∧ c.retire.loops = (c.loops.decide c.pc).1 := by
  simp only [CoreSt.retire, CoreSt.shadowStep_dslot, h, CoreSt.loops_boundary]
  refine ⟨by simp, ?_⟩
  rw [CoreSt.loops_goto, CoreSt.loops_setLoops]
  rfl

/-- Two changes of a core that agree on it give the same state. -/
theorem State.onCore_congr {s : State} {n : Nat} {f g : CoreSt → CoreSt} (h : f (s.core n) = g (s.core n)) :
    s.onCore n f = s.onCore n g := by
  simp only [State.onCore, State.onSite, Body.modSite, State.core] at *
  rw [h]

/-- An FP instruction executed to its end. -/
theorem fpRow_runs {s : State} {n word : Nat} {rdef rsel bad : Bool} {rounds : BitVec 6 → Bool}
    {f : CoreSt → Sel → CoreSt × FFlags} (h : s.coreRuns n = true) (hb : bad = false) :
    s.withBody (fpRow n word rdef rsel bad rounds f s.env s.body) = s.onCore n fun _ =>
      let sr := rounds (s.core n).fmodeUsed && s.coreSr n rdef rsel
      (((f (s.core n) (coreSel s.body n sr)).1.addFlags (f (s.core n) (coreSel s.body n sr)).2).countFp sr).retire := by
  subst hb
  rw [fpRow, coreGo_runs h rfl]
  simp [finish, State.onCore, State.onSite, State.core, State.coreSr]

end Sys2Proof.Machine
end

