-- ==== Sys2Proof/Laws/Engines.lean ====
section
/-! SUPPORT. Checks that no injection meets, for the engines: what they read is what memory holds. -/
namespace Sys2Proof.Machine

/-- No injection armed at a detector: no check of it meets one. -/
theorem injected_of_not_armed {b : Body} {det unit : Nat} (h : armedAt b det = false) : injected b det unit = none := by
  simp only [armedAt] at h
  simp [injected, h]

/-- A check of a detector without injection. -/
theorem check_of_not_armed {b : Body} {det unit : Nat} (h : armedAt b det = false) : check det unit b = (none, b) := by
  simp [check, injected_of_not_armed h]

/-- A reader of SRAM sees memory as it is while no injection is armed at the site. -/
theorem sramView_clean {e : Env} {s : Nat} {rs : List Range} {b : Body} (h : armedAt b (detOf 1 s) = false) :
    sramView e s rs b = (b.mem, b) := by
  simp [sramView, checkRanges, h]

/-- What a head that has not captured its descriptors captures, while no injection is armed at the site. -/
theorem captureHead_clean {e : Env} {s : Nat} {l : List Nat} {x : Eng} {b : Body} (h : armedAt b (detOf 1 s) = false) :
    captureHead e s l x b = (x.cap.getD (l.map (descAt b.mem s)), b) := by
  unfold captureHead
  cases x.cap with
  | some ds => rfl
  | none => simp only [sramView_clean h, Option.getD_none]

/-- The accumulator checks find nothing while no injection is armed at the engine. -/
theorem accCheck_clean {e : Env} {s : Nat} {l : List Nat} {b : Body} (h : armedAt b (detOf 2 s) = false) :
    accCheck e s l b = ([], b) := by
  simp only [accCheck, h, Bool.not_false, if_true]

/-- The register file's check finds nothing while no injection is armed at the engine. -/
theorem vxCheck_clean {e : Env} {s : Nat} {b : Body} (h : armedAt b (detOf 3 s) = false) : vxCheck e s b = (false, b) := by
  simp only [vxCheck, check_of_not_armed h]

/-- No late kickoff: TB_LATE_COUNT stays. -/
theorem launchAll_timely {b : Body} {e : Env} {l : List Nat} (h : l.any (kickLate e.now) = false) : b.launchAll e l = b := by
  simp [Body.launchAll, h]

/-- What `Eng.launches` says of a head that has not launched. -/
theorem Eng.launches_not_launched {x : Eng} {e : Env} {w : Bool} {ds : List Nat} {st : Nat} (hl : x.launched = false)
    (h : x.launches e w ds st = true) :
    (x.cap = none → w = false) ∧ (kickoffsOf ds).all (kickDue e.now) = true ∧
      (kickoffsOf ds).any (kickLate e.now) = false ∧ st = mxOk := by
  simp only [Eng.launches, hl, Bool.false_eq_true, if_false, Bool.and_eq_true, beq_iff_eq, Bool.or_eq_true,
    Bool.not_eq_true', List.all_eq_true] at h
  obtain ⟨⟨h1, h2⟩, h3⟩ := h
  refine ⟨fun hc => ?_, ?_, ?_, h3⟩
  · rcases h1 with h1 | h1
    · simp [hc] at h1
    · exact h1
  · simp only [List.all_eq_true]; exact fun k hk => (h2 k hk).1
  · simp only [List.any_eq_false]; exact fun k hk => by simp [(h2 k hk).2]

/-- The head of the matrix queue launches: nothing changes but what the engine notes of it. -/
theorem mxBegin_runs {n : Nat} {e : Env} {q : QEntry} {b : Body} (h1 : armedAt b (detOf 1 n) = false)
    (h : (b.site n).mx.eng.launches e ((b.site n).wakingAny (mxDescRanges q)) (mxPeek b n q)
      (mxStatus (b.site n) (mxPeek b n q) q) = true) :
    ∃ b', b.mxHead n b' ∧ mxBegin n e q b = b' ∧ (b'.site n).mx.eng.launched = true ∧
      (b'.site n).mx.eng.cap.getD [] = mxPeek b n q := by
  rcases hl : (b.site n).mx.eng.launched with _ | _
  · obtain ⟨hw, hd, hk, hs⟩ := Eng.launches_not_launched hl h
    rcases hc : (b.site n).mx.eng.cap with _ | c
    · have hw := hw hc
      rcases hr : mxReadable (b.site n) q with _ | _
      · have hp : mxPeek b n q = [] := by simp [mxPeek, hc, hr]
        rw [hp] at hs hd hk ⊢
        refine ⟨b.mxLaunched n none, .inr ⟨_, rfl⟩, ?_, by simp [Body.mxLaunched, Body.modMx], by simp [Body.mxLaunched, Body.modMx]⟩
        simp only [mxBegin, hl, hr, mxCapture, Option.isNone_none, Bool.not_false, Bool.and_true, Bool.false_and, Bool.and_false,
          Bool.or_self, Bool.false_eq_true, if_false, if_true, hd, Bool.not_true, hs, launchAll_timely hk, Body.mxLaunched, hc]
        simp [Body.modMx, Body.modSite, hc]
      · have hp : mxPeek b n q = (mxDescs q).map (descAt b.mem n) := by simp [mxPeek, hc, hr, hw]
        refine ⟨b.mxLaunched n (some (mxPeek b n q)), .inr ⟨_, rfl⟩, ?_, by simp [Body.mxLaunched, Body.modMx],
          by simp [Body.mxLaunched, Body.modMx]⟩
        simp only [mxBegin, hl, hc, hr, hw, mxCapture, captureHead_clean h1, Option.isNone_none, Bool.not_true, Bool.and_false, Bool.true_and,
          Bool.or_self, Bool.false_eq_true, if_false, Option.getD_none, ← hp, hd]
        simp only [launchAll_timely hk, Body.mxLaunched, Body.modMx, Body.modSite_modSite, Body.site_modSite]
        split
        · rfl
        · rename_i hn; exact absurd hs hn
    · have hp : mxPeek b n q = c := by simp [mxPeek, hc]
      refine ⟨b.mxLaunched n (some (mxPeek b n q)), .inr ⟨_, rfl⟩, ?_, by simp [Body.mxLaunched, Body.modMx],
        by simp [Body.mxLaunched, Body.modMx]⟩
      simp only [mxBegin, hl, hc, mxCapture, captureHead_clean h1, Option.isNone_some, Bool.false_and, 
        Bool.or_self, Bool.false_eq_true, if_false, Option.getD_some, ← hp, hd, Bool.not_true]
      simp only [launchAll_timely hk, Body.mxLaunched, Body.modMx, Body.modSite_modSite, Body.site_modSite]
      split
      · rfl
      · rename_i hn; exact absurd hs hn
  · refine ⟨b, .inl rfl, by simp [mxBegin, hl], hl, ?_⟩
    simp only [Eng.launches, hl, if_true, Option.isSome_iff_exists] at h
    obtain ⟨c, hc⟩ := h
    simp [mxPeek, hc]

/-- The head of the matrix queue executes. -/
theorem mxRun_runs {s : State} {n func : Nat} {q : QEntry} {f : Env → QEntry → List Nat → Body → Body}
    (h : s.mxRuns n q func = true) : ∃ b', s.body.mxHead n b' ∧
      mxRun func n f s.env s.body = f s.env q (mxPeek s.body n q) b' := by
  simp only [State.mxRuns, Bool.and_eq_true, decide_eq_true_eq, beq_iff_eq, Bool.not_eq_true', Bool.or_eq_true] at h
  obtain ⟨⟨⟨⟨⟨⟨⟨⟨h1, h2⟩, h3⟩, h4⟩, h5⟩, h6⟩, h7⟩, h8⟩, h9⟩ := h
  obtain ⟨b', hb, he, hl, hc⟩ := mxBegin_runs h8 h5
  refine ⟨b', hb, ?_⟩
  have h1' : ¬ 408 ≤ n := by omega
  have h4' : (decide (6 ≤ func) && !(s.body.site n).mx.drains.isEmpty) = false := by
    rcases h4 with h4 | h4
    · simp [show ¬ 6 ≤ func by omega]
    · simp [h4]
  have ho : (b'.site n).ownsAll 2 (mxUses (b'.site n).mx (mxPeek s.body n q) q) = true ∧
      (b'.site n).wakingAny (mxUses (b'.site n).mx (mxPeek s.body n q) q) = false ∧ armedAt b' (detOf 2 n) = false := by
    rcases hb with rfl | ⟨c, rfl⟩
    · exact ⟨h6, h7, h9⟩
    · simp only [Body.mxLaunched, Body.modMx, Body.site_modSite]; exact ⟨h6, h7, h9⟩
  unfold mxRun
  simp only [h2, h1', h3, h4', bne_self_eq_false, decide_false, Bool.or_self, Bool.false_eq_true, if_false, he, hl, hc, Bool.not_true,
    ho.1, ho.2.1, accCheck_clean ho.2.2, List.isEmpty_nil]

/-- The head of the vector queue launches: nothing changes but what the engine notes of it. -/
theorem vxBegin_runs {n : Nat} {e : Env} {q : QEntry} {b : Body} (h1 : armedAt b (detOf 1 n) = false)
    (h : (b.site n).vx.eng.launches e (wakingIn (b.site n) (vxTable (b.site n).vx q)) (vxPeek b n q)
      (vxStatus (b.site n) (vxPeek b n q) q) = true) :
    ∃ b', b.vxHead n b' ∧ vxBegin n e q b = b' ∧ (b'.site n).vx.eng.launched = true ∧
      (b'.site n).vx.eng.cap.getD [] = vxPeek b n q := by
  rcases hl : (b.site n).vx.eng.launched with _ | _
  · obtain ⟨hw, hd, hk, hs⟩ := Eng.launches_not_launched hl h
    rcases hc : (b.site n).vx.eng.cap with _ | c
    · have hw := hw hc
      rcases hr : vxReadable (b.site n) q with _ | _
      · have hp : vxPeek b n q = [] := by simp [vxPeek, hc, hr]
        rw [hp] at hs hd hk ⊢
        refine ⟨b.vxLaunched n none, .inr ⟨_, rfl⟩, ?_, by simp [Body.vxLaunched, Body.modVx], by simp [Body.vxLaunched, Body.modVx]⟩
        simp only [vxBegin, hl, hr, vxCapture, Option.isNone_none, Bool.not_false, Bool.and_true, Bool.false_and, Bool.and_false,
          Bool.or_self, Bool.false_eq_true, if_false, if_true, hd, Bool.not_true, hs, launchAll_timely hk, Body.vxLaunched, hc]
        simp [Body.modVx, Body.modSite, hc]
      · have hp : vxPeek b n q = (vxDescs (b.site n).vx q).map (descAt b.mem n) := by simp [vxPeek, hc, hr, hw]
        refine ⟨b.vxLaunched n (some (vxPeek b n q)), .inr ⟨_, rfl⟩, ?_, by simp [Body.vxLaunched, Body.modVx],
          by simp [Body.vxLaunched, Body.modVx]⟩
        simp only [vxBegin, hl, hc, hr, hw, vxCapture, captureHead_clean h1, Option.isNone_none, Bool.not_true, Bool.and_false, Bool.true_and,
          Bool.or_self, Bool.false_eq_true, if_false, Option.getD_none, ← hp, hd]
        simp only [launchAll_timely hk, Body.vxLaunched, Body.modVx, Body.modSite_modSite, Body.site_modSite]
        split
        · rfl
        · rename_i hn; exact absurd hs hn
    · have hp : vxPeek b n q = c := by simp [vxPeek, hc]
      refine ⟨b.vxLaunched n (some (vxPeek b n q)), .inr ⟨_, rfl⟩, ?_, by simp [Body.vxLaunched, Body.modVx],
        by simp [Body.vxLaunched, Body.modVx]⟩
      simp only [vxBegin, hl, hc, vxCapture, captureHead_clean h1, Option.isNone_some, Bool.false_and, 
        Bool.or_self, Bool.false_eq_true, if_false, Option.getD_some, ← hp, hd, Bool.not_true]
      simp only [launchAll_timely hk, Body.vxLaunched, Body.modVx, Body.modSite_modSite, Body.site_modSite]
      split
      · rfl
      · rename_i hn; exact absurd hs hn
  · refine ⟨b, .inl rfl, by simp [vxBegin, hl], hl, ?_⟩
    simp only [Eng.launches, hl, if_true, Option.isSome_iff_exists] at h
    obtain ⟨c, hc⟩ := h
    simp [vxPeek, hc]

/-- The head of the vector queue executes. -/
theorem vxExec_runs {s : State} {n func : Nat} {q : QEntry} {f : Env → QEntry → List Nat → Body → Body}
    (h : s.vxRuns n q func = true) : ∃ b', s.body.vxHead n b' ∧
      vxExec func n f s.env s.body = f s.env q (vxPeek s.body n q) b' := by
  simp only [State.vxRuns, Bool.and_eq_true, decide_eq_true_eq, beq_iff_eq, Bool.not_eq_true'] at h
  obtain ⟨⟨⟨⟨⟨⟨h1, h2⟩, h3⟩, h4⟩, h5⟩, h6⟩, h7⟩ := h
  obtain ⟨b', hb, he, hl, hc⟩ := vxBegin_runs h6 h4
  refine ⟨b', hb, ?_⟩
  have h1' : ¬ 408 ≤ n := by omega
  have ho : (b'.site n).wakingAny (vxUses b' n (vxPeek s.body n q) q) = false ∧ armedAt b' (detOf 3 n) = false := by
    rcases hb with rfl | ⟨c, rfl⟩
    · exact ⟨h5, h7⟩
    · simp only [vxUses, Body.vxLaunched, Body.modVx, Body.site_modSite, Body.modSite_mem]; exact ⟨h5, h7⟩
  unfold vxExec
  simp only [h2, h1', h3, bne_self_eq_false, decide_false, Bool.or_self, Bool.false_eq_true, if_false, he, hl, hc, Bool.not_true,
    ho.1, vxCheck_clean ho.2, ite_self]

end Sys2Proof.Machine
end

