-- ==== Sys2Proof/Laws/Mem.lean ====
section
/-! SUPPORT. The byte memory: reading after writing, and that every memory operation keeps the canonical form. -/
namespace Sys2Proof.Machine

/-- The canonical form seen from the head: no default entry, below everything behind it, and a canonical rest. -/
theorem Mem.wf_cons_iff (c : Host.Cell) (r : Mem) :
    Mem.wf (c :: r) = true ↔ c.2 ≠ memDefault ∧ (∀ x ∈ r, c.1 < x.1) ∧ Mem.wf r = true := by
  obtain ⟨k, v⟩ := c
  induction r generalizing k v with
  | nil => simp [Mem.wf]
  | cons y r ih =>
    obtain ⟨k', w⟩ := y
    simp only [Mem.wf, Bool.and_eq_true, bne_iff_ne, ne_eq, decide_eq_true_eq]
    constructor
    · rintro ⟨⟨h1, h2⟩, h3⟩
      refine ⟨h1, ?_, h3⟩
      intro x hx
      rcases List.mem_cons.1 hx with rfl | hx
      · exact h2
      · exact Nat.lt_trans h2 (((ih k' w).1 h3).2.1 x hx)
    · rintro ⟨h1, h2, h3⟩
      exact ⟨⟨h1, h2 (k', w) (by simp)⟩, h3⟩

/-- An address below every entry reads as the default. -/
theorem Mem.get_below (m : Mem) (a : Nat) (h : ∀ x ∈ m, a < x.1) : m.get a = memDefault := by
  cases m with
  | nil => rfl
  | cons y r =>
    obtain ⟨k, w⟩ := y
    have h0 : a < k := h (k, w) (by simp)
    have h1 : ¬ k = a := by omega
    simp [Mem.get, h0, h1]

/-- Entries after a write: the old ones and perhaps the one written. -/
theorem Mem.mem_set {m : Mem} {a : Nat} {v : Byte} {x : Host.Cell} (h : x ∈ m.set a v) : x = (a, v) ∨ x ∈ m := by
  induction m with
  | nil =>
    simp only [Mem.set] at h
    split at h
    · simp at h
    · simp at h; exact .inl h
  | cons y r ih =>
    obtain ⟨k, w⟩ := y
    simp only [Mem.set] at h
    split at h
    · split at h
      · exact .inr (by simp [h])
      · rcases List.mem_cons.1 h with h | h
        · exact .inl h
        · exact .inr (by simp [h])
    · split at h
      · split at h
        · exact .inr h
        · rcases List.mem_cons.1 h with h | h
          · exact .inl h
          · exact .inr h
      · rcases List.mem_cons.1 h with h | h
        · exact .inr (by simp [h])
        · rcases ih h with h | h
          · exact .inl h
          · exact .inr (by simp [h])

/-- Writing a byte keeps the canonical form. -/
theorem Mem.wf_set (m : Mem) (a : Nat) (v : Byte) (h : m.wf = true) : (m.set a v).wf = true := by
  induction m with
  | nil =>
    simp only [Mem.set]
    split
    · rfl
    · rename_i hv; simpa [Mem.wf] using hv
  | cons y r ih =>
    obtain ⟨k, w⟩ := y
    obtain ⟨h1, h2, h3⟩ := (Mem.wf_cons_iff _ _).1 h
    simp only [Mem.set]
    split
    · rename_i e; subst e
      split
      · exact h3
      · rename_i hv; exact (Mem.wf_cons_iff _ _).2 ⟨hv, h2, h3⟩
    · rename_i e
      split
      · rename_i l
        split
        · exact h
        · rename_i hv
          refine (Mem.wf_cons_iff _ _).2 ⟨hv, ?_, h⟩
          intro x hx
          rcases List.mem_cons.1 hx with rfl | hx
          · exact l
          · exact Nat.lt_trans l (h2 x hx)
      · rename_i l
        refine (Mem.wf_cons_iff _ _).2 ⟨h1, ?_, ih h3⟩
        intro x hx
        rcases Mem.mem_set hx with rfl | hx
        · show k < a; omega
        · exact h2 x hx

/-- Reading the byte just written. -/
theorem Mem.get_set_same (m : Mem) (a : Nat) (v : Byte) (h : m.wf = true) : (m.set a v).get a = v := by
  induction m with
  | nil =>
    simp only [Mem.set]
    split
    · rename_i hv; simp [Mem.get, hv]
    · simp [Mem.get]
  | cons y r ih =>
    obtain ⟨k, w⟩ := y
    obtain ⟨_, h2, h3⟩ := (Mem.wf_cons_iff _ _).1 h
    simp only [Mem.set]
    split
    · rename_i e; subst e
      split
      · rename_i hv; rw [hv]; exact Mem.get_below _ _ h2
      · simp [Mem.get]
    · rename_i e
      split
      · rename_i l
        split
        · rename_i hv; rw [hv]; simp [Mem.get, e, l]
        · simp [Mem.get]
      · rename_i l; simp [Mem.get, e, l, ih h3]

/-- Reading another byte. -/
theorem Mem.get_set_other (m : Mem) {a c : Nat} (v : Byte) (h : m.wf = true) (ne : c ≠ a) :
    (m.set a v).get c = m.get c := by
  induction m with
  | nil =>
    simp only [Mem.set]
    split
    · rfl
    · simp [Mem.get, Ne.symm ne]
  | cons y r ih =>
    obtain ⟨k, w⟩ := y
    obtain ⟨_, h2, h3⟩ := (Mem.wf_cons_iff _ _).1 h
    simp only [Mem.set]
    split
    · rename_i e; subst e
      split
      · have hk : ¬ k = c := Ne.symm ne
        by_cases l : c < k
        · rw [Mem.get_below r c (fun x hx => Nat.lt_trans l (h2 x hx))]; simp [Mem.get, hk, l]
        · simp [Mem.get, hk, l]
      · simp [Mem.get, Ne.symm ne]
    · rename_i e
      split
      · rename_i l
        split
        · rfl
        · by_cases lt : c < a
          · have : ¬ k = c := by omega
            have : c < k := by omega
            simp [Mem.get, Ne.symm ne, *]
          · simp [Mem.get, Ne.symm ne, lt]
      · simp only [Mem.get]
        split
        · rfl
        · split
          · rfl
          · exact ih h3

/-- Writing bytes keeps the canonical form. -/
theorem Mem.wf_write (m : Mem) (a : Nat) (l : List Byte) (h : m.wf = true) : (m.write a l).wf = true := by
  induction l generalizing m a with
  | nil => exact h
  | cons b r ih => exact ih _ _ (Mem.wf_set m a b h)

/-- Writing a number keeps the canonical form. -/
theorem Mem.wf_setNum (m : Mem) (a n v : Nat) (h : m.wf = true) : (m.setNum a n v).wf = true := Mem.wf_write _ _ _ h

/-- Writing a bit field keeps the canonical form. -/
theorem Mem.wf_setBits (m : Mem) (a bit w v : Nat) (h : m.wf = true) : (m.setBits a bit w v).wf = true :=
  Mem.wf_setNum _ _ _ _ h

/-- Taking entries out keeps the canonical form. -/
theorem Mem.wf_filter (m : Mem) (p : Host.Cell → Bool) (h : m.wf = true) : Mem.wf (m.filter p) = true := by
  induction m with
  | nil => rfl
  | cons y r ih =>
    obtain ⟨h1, h2, h3⟩ := (Mem.wf_cons_iff _ _).1 h
    simp only [List.filter_cons]
    split
    · exact (Mem.wf_cons_iff _ _).2 ⟨h1, fun x hx => h2 x (List.mem_filter.1 hx).1, ih h3⟩
    · exact ih h3

/-- Clearing a run keeps the canonical form. -/
theorem Mem.wf_clear (m : Mem) (a n : Nat) (h : m.wf = true) : (m.clear a n).wf = true := Mem.wf_filter _ _ h

/-- Replacing a region keeps the canonical form. -/
theorem Mem.wf_paste (m : Mem) (a n : Nat) (p : Mem) (h : m.wf = true) : (m.paste a n p).wf = true := by
  unfold Mem.paste
  have hc := Mem.wf_clear m a n h
  revert hc
  generalize m.clear a n = m'
  induction p generalizing m' with
  | nil => exact id
  | cons c r ih => intro hm; exact ih _ (Mem.wf_set _ _ _ hm)

/-- Cutting a region out gives the canonical form. -/
theorem Mem.wf_slice (m : Mem) (a n : Nat) (h : m.wf = true) : (m.slice a n).wf = true := by
  unfold Mem.slice
  have hf : ∀ x ∈ m.filter (fun c => a ≤ c.1 && c.1 < a + n), a ≤ x.1 := by
    intro x hx
    have := (List.mem_filter.1 hx).2
    simp at this
    exact this.1
  have hw := Mem.wf_filter m (fun c => a ≤ c.1 && c.1 < a + n) h
  revert hf hw
  generalize m.filter (fun c => a ≤ c.1 && c.1 < a + n) = l
  intro hf hw
  induction l with
  | nil => rfl
  | cons y r ih =>
    obtain ⟨h1, h2, h3⟩ := (Mem.wf_cons_iff _ _).1 hw
    refine (Mem.wf_cons_iff _ _).2 ⟨h1, ?_, ih (fun x hx => hf x (by simp [hx])) h3⟩
    intro x hx
    obtain ⟨z, hz, rfl⟩ := List.mem_map.1 hx
    have := h2 z hz
    have := hf y (by simp)
    have := hf z (by simp [hz])
    show y.1 - a < z.1 - a
    omega

/-- Bytes outside a written run read as before. -/
theorem Mem.get_write_outside (m : Mem) (a : Nat) (l : List Byte) (c : Nat) (h : m.wf = true)
    (ho : c < a ∨ a + l.length ≤ c) : (m.write a l).get c = m.get c := by
  induction l generalizing m a with
  | nil => rfl
  | cons b r ih =>
    have hl : c < a ∨ a + (r.length + 1) ≤ c := by simpa using ho
    show ((m.set a b).write (a + 1) r).get c = m.get c
    rw [ih (m.set a b) (a + 1) (Mem.wf_set m a b h) (by omega)]
    exact Mem.get_set_other m b h (by omega)

/-- The bytes written read back. -/
theorem Mem.bytes_write (m : Mem) (a : Nat) (l : List Byte) (h : m.wf = true) :
    (m.write a l).bytes a l.length = l := by
  induction l generalizing m a with
  | nil => rfl
  | cons b r ih =>
    have hw := Mem.wf_set m a b h
    have hb : ((m.set a b).write (a + 1) r).get a = b := by
      rw [Mem.get_write_outside _ _ _ _ hw (.inl (by omega))]
      exact Mem.get_set_same m a b h
    simp only [List.length_cons, Mem.write, Mem.bytes, hb, ih _ (a + 1) hw]

end Sys2Proof.Machine
end

