-- ==== Sys2Proof/WellFormed.lean ====
section
/-! DEFINITION. Which commands are well formed: every number that names a piece of the device names one that exists. A
command that is not well formed has no effect. -/
namespace Sys2Proof

/-- An agent that exists (R483). -/
def agentOk : Agent → Bool
  | .host p f => decide (p < 2) && decide (f < 9)
  | .mp => true
  | .tap => true

/-- A mesh packet from a stop that exists, with a requester code of R436. -/
def meshOk (r : MeshReq) : Bool := decide (r.src < 426) && decide (1 ≤ r.req) && decide (r.req ≤ 11)

/-- A frame whose payload a Horven frame can carry (R333). -/
def frameOk (f : Frame) : Bool := decide (f.payload.length ≤ 8192) && decide (f.hop < 256)

/-- Is the command well formed? -/
def wellFormed : Instr → Bool
  | .csrWrite ag addr size _ => agentOk ag && decide (addr < 2 ^ 28) && decide (size < 16)
  | .substMapWrite ag n _ => agentOk ag && decide (n < 384)
  | .substDrained n => decide (n < 384)
  | .meshRequest r => meshOk r
  | .siteWindowAccess ag site off _ _ _ => agentOk ag && decide (site < 408) && decide (off < 0x20_0000)
  | .engineIssue site _ => decide (site < 408)
  | .mxOpen site => decide (site < 408)
  | .mxMma site => decide (site < 408)
  | .mxClose site _ => decide (site < 408)
  | .mxFold site => decide (site < 408)
  | .mxLoadacc site => decide (site < 408)
  | .mxDiscard site => decide (site < 408)
  | .mxSpill site _ => decide (site < 408)
  | .mxFill site => decide (site < 408)
  | .mxKickoffLaunch site => decide (site < 408)
  | .mxShadowDrainEnd site g _ => decide (site < 408) && decide (g < 8)
  | .mxComplete site => decide (site < 408)
  | .mxFlush ag site _ => agentOk ag && decide (site < 408)
  | .mxResume ag site => agentOk ag && decide (site < 408)
  | .mxCfgWrite ag site _ => agentOk ag && decide (site < 408)
  | .vxRun site _ => decide (site < 408)
  | .vxPload site => decide (site < 408)
  | .vxSpill site _ => decide (site < 408)
  | .vxFill site => decide (site < 408)
  | .vxKickoffLaunch site => decide (site < 408)
  | .vxComplete site => decide (site < 408)
  | .vxFlush ag site => agentOk ag && decide (site < 408)
  | .vxResume ag site => agentOk ag && decide (site < 408)
  | .add site _ _ _ => decide (site < 408)
  | .sub site _ _ _ => decide (site < 408)
  | .and site _ _ _ => decide (site < 408)
  | .or site _ _ _ => decide (site < 408)
  | .xor site _ _ _ => decide (site < 408)
  | .shl site _ _ _ => decide (site < 408)
  | .shr site _ _ _ => decide (site < 408)
  | .sar site _ _ _ => decide (site < 408)
  | .lt site _ _ _ => decide (site < 408)
  | .ltu site _ _ _ => decide (site < 408)
  | .mul site _ _ _ => decide (site < 408)
  | .mulhs site _ _ _ => decide (site < 408)
  | .mulhu site _ _ _ => decide (site < 408)
  | .div site _ _ _ => decide (site < 408)
  | .divu site _ _ _ => decide (site < 408)
  | .mod site _ _ _ => decide (site < 408)
  | .modu site _ _ _ => decide (site < 408)
  | .addk site _ _ _ => decide (site < 408)
  | .andk site _ _ _ => decide (site < 408)
  | .ork site _ _ _ => decide (site < 408)
  | .xork site _ _ _ => decide (site < 408)
  | .ltk site _ _ _ => decide (site < 408)
  | .shk site _ _ _ => decide (site < 408)
  | .upk site _ _ _ => decide (site < 408)
  | .l64 site _ _ _ => decide (site < 408)
  | .l32s site _ _ _ => decide (site < 408)
  | .l32z site _ _ _ => decide (site < 408)
  | .l8z site _ _ _ => decide (site < 408)
  | .s64 site _ _ _ _ => decide (site < 408)
  | .s32 site _ _ _ _ => decide (site < 408)
  | .s8 site _ _ _ _ => decide (site < 408)
  | .fl64 site _ _ _ => decide (site < 408)
  | .fl32 site _ _ _ => decide (site < 408)
  | .fs64 site _ _ _ _ => decide (site < 408)
  | .fs32 site _ _ _ _ => decide (site < 408)
  | .fma site _ _ _ _ _ _ _ _ => decide (site < 408)
  | .fadd site _ => decide (site < 408)
  | .fsub site _ => decide (site < 408)
  | .fmul site _ => decide (site < 408)
  | .fdiv site _ => decide (site < 408)
  | .fsqrt site _ => decide (site < 408)
  | .fmin site _ => decide (site < 408)
  | .fmax site _ => decide (site < 408)
  | .fceq site _ => decide (site < 408)
  | .fclt site _ => decide (site < 408)
  | .fcle site _ => decide (site < 408)
  | .fcvW site _ => decide (site < 408)
  | .fcvToi site _ => decide (site < 408)
  | .fcvFromi site _ => decide (site < 408)
  | .fmovx site _ => decide (site < 408)
  | .xmovf site _ => decide (site < 408)
  | .fcvTodf site _ => decide (site < 408)
  | .fcvFromdf site _ => decide (site < 408)
  | .breq site _ _ _ => decide (site < 408)
  | .brne site _ _ _ => decide (site < 408)
  | .brlt site _ _ _ => decide (site < 408)
  | .brge site _ _ _ => decide (site < 408)
  | .brltu site _ _ _ => decide (site < 408)
  | .brgeu site _ _ _ => decide (site < 408)
  | .jmp site _ => decide (site < 408)
  | .call site _ => decide (site < 408)
  | .jmpr site _ _ _ _ => decide (site < 408)
  | .loop site _ _ _ _ => decide (site < 408)
  | .waitc site _ _ _ _ => decide (site < 408)
  | .waitcSatisfied site => decide (site < 408)
  | .waitk site _ _ _ => decide (site < 408)
  | .waitkDue site => decide (site < 408)
  | .fenceM site _ => decide (site < 408)
  | .fenceE site _ => decide (site < 408)
  | .pfence site _ => decide (site < 408)
  | .fenceA site _ => decide (site < 408)
  | .fenceComplete site => decide (site < 408)
  | .sprd site _ _ _ => decide (site < 408)
  | .spwr site _ _ _ => decide (site < 408)
  | .spset site _ _ _ => decide (site < 408)
  | .spclr site _ _ _ => decide (site < 408)
  | .vsum site _ _ _ _ => decide (site < 408)
  | .trap site _ _ => decide (site < 408)
  | .eret site _ => decide (site < 408)
  | .interruptEntry site => decide (site < 408)
  | .balloc site _ _ _ => decide (site < 408)
  | .bfree site _ _ _ => decide (site < 408)
  | .bhand site _ _ _ => decide (site < 408)
  | .bguest site _ _ _ => decide (site < 408)
  | .block site _ _ _ => decide (site < 408)
  | .bpwr site _ _ _ => decide (site < 408)
  | .coreStart ag site => agentOk ag && decide (site < 408)
  | .coreStop ag site => agentOk ag && decide (site < 408)
  | .irqh ag site => agentOk ag && decide (site < 408)
  | .irqm ag site => agentOk ag && decide (site < 408)
  | .tlCorePcWrite ag site _ => agentOk ag && decide (site < 408)
  | .tlBankOwnWrite ag site _ => agentOk ag && decide (site < 408)
  | .tlBankPwrWrite ag site _ => agentOk ag && decide (site < 408)
  | .bankWakeDone site bank => decide (site < 408) && decide (bank < 32)
  | .svLaunch site => decide (site < 408)
  | .svLoad site => decide (site < 408)
  | .svUnload site => decide (site < 408)
  | .forwardedLaunch site => decide (site < 408)
  | .svPartStart site _ => decide (site < 408)
  | .svPieceArrive site => decide (site < 408)
  | .svWaitSatisfied site _ => decide (site < 408)
  | .svPartEnd site => decide (site < 408)
  | .svDonePiece site => decide (site < 408)
  | .svRunComplete site _ => decide (site < 408)
  | .svFailNotice site => decide (site < 408)
  | .svFlush ag site => agentOk ag && decide (site < 408)
  | .svResume ag site => agentOk ag && decide (site < 408)
  | .scrubRead stack => decide (stack < 12)
  | .laneRepair stack lane => decide (stack < 12) && decide (lane < 2048)
  | .laneRepairEnd stack => decide (stack < 12)
  | .stackLost stack => decide (stack < 12)
  | .faultRetry ag q => agentOk ag && decide (q < 8)
  | .faultFail ag q => agentOk ag && decide (q < 8)
  | .pgDirKick ag q => agentOk ag && decide (q < 8)
  | .dirPoll q => decide (q < 8)
  | .directiveStart q => decide (q < 8)
  | .dirFetch q => decide (q < 8)
  | .dirOffload q => decide (q < 8)
  | .dirAlloc q => decide (q < 8)
  | .dirFree q => decide (q < 8)
  | .dirRetain q => decide (q < 8)
  | .dirRelease q => decide (q < 8)
  | .translationInvalAck q _ => decide (q < 8)
  | .pageMoveDone q _ => decide (q < 8)
  | .budgetWaitEnd q => decide (q < 8)
  | .directiveComplete q => decide (q < 8)
  | .stageAppend ag _ => agentOk ag
  | .protRegWrite ag _ _ => agentOk ag
  | .bump ag => agentOk ag
  | .protBumpApply => true
  | .stageClear ag => agentOk ag
  | .hpoolWrite ag port _ _ => agentOk ag && decide (port < 2)
  | .tbSetWrite ag _ => agentOk ag
  | .tbCfgWrite ag _ => agentOk ag
  | .ptpMessage port _ _ => decide (8 ≤ port) && decide (port < 10)
  | .timeSourceLost => true
  | .timeSend port => decide (port < 8)
  | .time port _ hops _ _ => decide (port < 8) && decide (hops < 64)
  | .parentReselect => true
  | .pcsLock port => decide (port < 8)
  | .helloSend port => decide (port < 8)
  | .hello port _ _ _ _ _ _ => decide (port < 8)
  | .helloTimeout port => decide (port < 8)
  | .keepaliveSend port => decide (port < 8)
  | .keepalive port _ _ => decide (port < 8)
  | .keepaliveTimeout port => decide (port < 8)
  | .laneBad port lane => decide (port < 10) && decide (lane < 8)
  | .widthReq port _ => decide (port < 8)
  | .widthAck port _ => decide (port < 8)
  | .widthGo port _ _ => decide (port < 8)
  | .widthSwitch port => decide (port < 8)
  | .linkRelock port => decide (port < 8)
  | .relockTimeout port => decide (port < 8)
  | .retrainReq port => decide (port < 8)
  | .portWidth ag port => agentOk ag && decide (port < 8)
  | .portRetrain ag port => agentOk ag && decide (port < 10)
  | .linkTrained port _ => decide (port < 10)
  | .linkDown port => decide (port < 10)
  | .llrAck port _ => decide (port < 8)
  | .llrNak port _ => decide (port < 8)
  | .llrTimeout port => decide (port < 8)
  | .data port f => decide (port < 10) && frameOk f
  | .ack port f => decide (port < 10) && frameOk f
  | .aresp port f _ => decide (port < 10) && frameOk f
  | .ackDelayExpiry _ _ => true
  | .rtoExpiry _ _ _ => true
  | .frameForward port f _ => decide (port < 10) && frameOk f
  | .frameHoldTimeout port => decide (port < 10)
  | .flowReset ag _ => agentOk ag
  | .deadSet ag _ => agentOk ag
  | .deadClr ag _ => agentOk ag
  | .routerIdWrite ag _ _ => agentOk ag
  | .openPortReceive port _ _ _ _ => decide (8 ≤ port) && decide (port < 10)
  | .neighbourSolicitation port _ => decide (8 ≤ port) && decide (port < 10)
  | .cpLaunch site _ => decide (site < 408)
  | .put site _ _ => decide (site < 408)
  | .get site _ _ => decide (site < 408)
  | .atomic site _ => decide (site < 408)
  | .osend site _ => decide (site < 408)
  | .reduceScatter site _ _ => decide (site < 408)
  | .allGather site _ _ => decide (site < 408)
  | .allReduce site _ _ => decide (site < 408)
  | .broadcast site _ _ => decide (site < 408)
  | .cpComplete site _ _ => decide (site < 408)
  | .cpFlush ag site _ => agentOk ag && decide (site < 408)
  | .cpResume ag site => agentOk ag && decide (site < 408)
  | .putData _ _ => true
  | .getReq => true
  | .getData _ => true
  | .atom => true
  | .atomPart => true
  | .fadd32 => true
  | .fmax32 => true
  | .fmin32 => true
  | .iadd64 _ => true
  | .swap64 _ => true
  | .cas64 _ => true
  | .imax64 _ => true
  | .imin64 _ => true
  | .asumWaitTimeout => true
  | .combineWindowEnd _ => true
  | .collData _ => true
  | .notready => true
  | .ready => true
  | .staleRet _ => true
  | .status => true
  | .rankArrive site _ => decide (site < 408)
  | .reductionClose site _ _ => decide (site < 408)
  | .lineupLogWrite => true
  | .replayRelease ag => agentOk ag
  | .clearCarry ag => agentOk ag
  | .mbStart ag => agentOk ag
  | .mbAdmit => true
  | .mbKick ag => agentOk ag
  | .mbScan => true
  | .updKick ag => agentOk ag
  | .updPoll => true
  | .updResume ag => agentOk ag
  | .updateStart => true
  | .sgd => true
  | .momentum => true
  | .nesterov => true
  | .adagrad => true
  | .rmsprop => true
  | .adam => true
  | .adamw => true
  | .lambApply => true
  | .normsq => true
  | .lambNorm => true
  | .convert => true
  | .updateComplete => true
  | .trGenWrite ag _ => agentOk ag
  | .staleCollectiveFinish site _ _ => decide (site < 408)
  | .trHomeWrite ag _ => agentOk ag
  | .digestFlush ag => agentOk ag
  | .digestRecordWrite => true
  | .dgSelectWrite ag _ _ => agentOk ag
  | .injectFeed => true
  | .whistle => true
  | .retire _ => true
  | .suspect _ => true
  | .suspectSend port => decide (port < 10)
  | .heartbeatSend => true
  | .heartbeat => true
  | .refereeTakeover _ => true
  | .rejoin => true
  | .agreeStart => true
  | .agree => true
  | .agreeWriteStart ag => agentOk ag
  | .errTailWrite ag _ => agentOk ag
  | .errInjArm ag _ => agentOk ag
  | .eyeMarginCheck inst lane pct => decide (inst < 12) && decide (lane < 16) && decide (pct ≤ 100)
  | .substStart n _ => decide (n < 384)
  | .substPlaceRestore => true
  | .substDone => true
  | .cfgDigestRecompute => true
  | .loadWindow _ _ _ _ => true
  | .watchdogKick core => decide (core < 4)
  | .watchdogExpiry core => decide (core < 4)
  | .mpReset ag => agentOk ag
  | .mpUpdate ag => agentOk ag
  | .sqCfgWrite ag q _ => agentOk ag && decide (q < 8)
  | .callup ag q => agentOk ag && decide (q < 8)
  | .yieldStore site _ _ => decide (site < 408)
  | .callupCalled q => decide (q < 8)
  | .callReturn ag q => agentOk ag && decide (q < 8)
  | .callupReturned q => decide (q < 8)
  | .deficitWindowEnd q _ _ _ => decide (q < 8)
  | .queueDoorbell p f k _ _ => decide (p < 2) && decide (f < 9) && decide (k < 1016) && (f == 0 || decide (k < 120))
  | .cmdNop p f k => decide (p < 2) && decide (f < 9) && decide (k < 1016) && (f == 0 || decide (k < 120))
  | .tileLoad p f k => decide (p < 2) && decide (f < 9) && decide (k < 1016) && (f == 0 || decide (k < 120))
  | .cmdSubst p f k => decide (p < 2) && decide (f < 9) && decide (k < 1016) && (f == 0 || decide (k < 120))
  | .cmdWhistle p f k _ => decide (p < 2) && decide (f < 9) && decide (k < 1016) && (f == 0 || decide (k < 120))
  | .cmdInfo p f k => decide (p < 2) && decide (f < 9) && decide (k < 1016) && (f == 0 || decide (k < 120))
  | .cmdDigest p f k => decide (p < 2) && decide (f < 9) && decide (k < 1016) && (f == 0 || decide (k < 120))
  | .cmdFlash p f k => decide (p < 2) && decide (f < 9) && decide (k < 1016) && (f == 0 || decide (k < 120))
  | .hiBar2Write ag p _ => agentOk ag && decide (p < 2)
  | .coldReset _ => true
  | .warmReset p _ => decide (p < 2)
  | .deviceReset ag _ _ => agentOk ag
  | .tileReset ag _ => agentOk ag
  | .squadReset ag _ => agentOk ag
  | .portPerst p => decide (p < 2)
  | .functionLevelReset p f => decide (p < 2) && decide (f < 9)
  | .powerSample _ => true
  | .pwrBrake _ => true
  | .thermalLimit sensor _ => decide (sensor < 52)
  | .thermalTrip sensor _ => decide (sensor < 52)
  | .tapCsr _ => true
  | .pldmRequest _ _ _ => true
  | .pcieLinkUp p _ _ => decide (p < 2)
  | .pcieLinkDown p => decide (p < 2)
  | .hbmWindowAccess p off _ _ _ => decide (p < 2) && decide (off < 2 ^ 36)
  | .digestStale => true
  | .trstAssert => true
  | .portEnable ag port _ => agentOk ag && decide (port < 10)

end Sys2Proof
end

