-- ==== Sys2Proof/Tests/Slice0.lean ====
section
/-! SUPPORT. Small tests: the checks of WellFormed, single commands with results taken from the spec, and for each
statement states and operands that meet its hypotheses. -/
namespace Sys2Proof.Tests
open Sys2Proof Sys2Proof.Machine
set_option Elab.async false

-- Small states.

/-- Reset with another body. -/
def onBody (f : Body → Body) : State := State.reset.withBody (f State.reset.body)
/-- Reset with site 0 changed. -/
def at0 (f : Site → Site) : State := onBody (·.modSite 0 f)
/-- Reset with the banks of site 0 owned by unit `u`. -/
def owned (u : Nat) (t : Site) : Site :=
  (List.range 32).foldl (fun t i => t.setBank i { t.bank i with owner := u }) t
/-- A core that runs at SRAM address 0x100, its banks its own. -/
def running (f : CoreSt → CoreSt) : State :=
  at0 fun t => { owned 1 t with core := f { t.core with stopped := false, pc := 0x100 } }
/-- The management processor as host privilege's peer: PF of port 0. -/
abbrev pf : Agent := .host 0 0

/-- The state that a command leaves. -/
def after (i : Instr) (s : State) : State :=
  match exec i s with
  | .next t => t
  | _ => s

-- WellFormed: one ill-formed command for each check.

theorem test_wellFormed_refuses :
    [Instr.mxMma 408, .substDrained 384, .substMapWrite pf 384 0, .csrWrite (.host 2 0) 0 8 0, .csrWrite (.host 0 9) 0 8 0,
      .csrWrite pf (2 ^ 28) 8 0, .csrWrite pf 0 16 0, .mxShadowDrainEnd 0 8 [], .bankWakeDone 0 32, .scrubRead 12,
      .laneRepair 0 2048, .faultRetry pf 8, .dirPoll 8, .stageAppend (.host 2 0) 0, .hpoolWrite pf 2 false 0,
      .ptpMessage 7 0 (.sync 0 0 false 0), .ptpMessage 10 0 (.sync 0 0 false 0), .timeSend 8, .time 0 0 64 0 0, .laneBad 10 0, .laneBad 0 8, .portWidth pf 8,
      .portRetrain pf 10, .linkTrained 10 0, .eyeMarginCheck 12 0 0, .eyeMarginCheck 0 16 0, .eyeMarginCheck 0 0 101,
      .watchdogKick 4, .queueDoorbell 2 0 0 true 0, .queueDoorbell 0 9 0 true 0, .queueDoorbell 0 0 1016 true 0,
      .queueDoorbell 0 1 120 true 0, .hiBar2Write pf 2 0, .warmReset 2 noBoot, .thermalLimit 52 0,
      .hbmWindowAccess 0 (2 ^ 36) false [] 8, .siteWindowAccess pf 408 0 false [] 8,
      .siteWindowAccess pf 0 0x20_0000 false [] 8,
      .meshRequest { src := 426, req := 9, dst := .phys 0, write := false, bytes := [], len := 8 },
      .meshRequest { src := 0, req := 12, dst := .phys 0, write := false, bytes := [], len := 8 }].all
      (fun i => !wellFormed i) = true := by decide

/-- A DATA frame with nothing in it. -/
def frame : Frame where
  phy := .clean
  ecn := 0
  label := 0
  prefixHi := 0
  udp := 0
  udpSum := 0
  hop := 4
  typ := 1
  ackv := false
  retx := false
  atom := false
  tc := 0
  src := 1
  dst := 0
  inc := 0
  seq := 0
  ackseq := 0
  lseq := 0
  side := 0
  vclass := false
  sack := 0
  ecrc := 0
  payload := []

theorem test_wellFormed_refuses_long_frames :
    wellFormed (.data 0 { frame with payload := List.replicate 8193 0 }) = false ∧
    wellFormed (.data 0 { frame with hop := 256 }) = false ∧ wellFormed (.data 0 frame) = true := by decide +kernel

theorem test_decodeTableWord : decodeTableWord 32 0x81C0_0001 = none := rfl

theorem test_withFetchWord : State.reset.withFetchWord 8 0 = State.reset := by decide

-- The machine as a whole.

theorem witness_StepRunsFrontCommand : { State.reset with pending := [.mbScan, .mbAdmit] }.pending = [.mbScan, .mbAdmit] := rfl
theorem witness_IdleStepIsOneTick : State.reset.pending = [] := rfl
theorem witness_IdleStepIsOneTick_corrected : (TimeBase.corrected { TimeBase.initial with mode := .holdover }) = true ∧
    TimeBase.initial.corrected = false := by decide
theorem witness_ResetValues : (0 : Nat) < 408 ∧ 383 < 408 ∧ 384 < 408 ∧ 407 < 408 := by decide
theorem witness_StepKeepsTimeBaseWellFormed : State.reset.time.wf = true ∧ step State.reset = .next State.reset.tick :=
  ⟨by decide, rfl⟩
theorem witness_StepNeverTurnsTimeBack : State.reset.time.wf = true ∧ State.reset.time.time.toNat + 2 < 2 ^ 64 ∧
    State.reset.pending.head? = none ∧ step State.reset = .next State.reset.tick := ⟨by decide, by decide, rfl, rfl⟩

-- The control core.

theorem witness_coreRuns : (running id).coreRuns 0 = true ∧ (running id).coreRunsAlone 0 = true ∧
    (running id).coreRunsNoSlot 0 = true := by decide +kernel

theorem witness_OprResults : (running id).coreRuns 0 = true := by decide +kernel
theorem witness_ImmediateResults : (running id).coreRuns 0 = true ∧ (0x003F#16).extractLsb' 6 10 = 0 ∧
    (0x007F#16).extractLsb' 6 10 = 1 ∧ (0x00BF#16).extractLsb' 6 10 = 2 ∧ 3 ≤ ((0x00C0#16).extractLsb' 6 10).toNat := by
  decide +kernel
theorem witness_RegisterWriteFrame : (31 : RegNo) ≠ 0 ∧ (1 : Nat) ≠ 0 := by decide

/-- Loop registers of a core. -/
def looping (l0 l1 : LoopReg) : CoreSt := { CoreSt.initial with pc := 0x100, superLoop := { l0 := l0, l1 := l1 } }

theorem witness_RetireGoesWhere :
    let on : LoopReg := { lc := 2, ls := 0x80, le := 0x100 }
    let last : LoopReg := { lc := 1, ls := 0x80, le := 0x100 }
    let off := LoopReg.initial
    ((looping off off).dslot = none ∧ (looping off off).loops.atEnd 0x100 = false) ∧
    ((looping off on).loops.l1.lc ≠ 0 ∧ (looping off on).loops.l1.le = (looping off on).pc ∧ (looping off on).loops.l1.lc ≠ 1) ∧
    ((looping on off).loops.l1.lc = 0 ∧ (looping on off).loops.l0.lc ≠ 1 ∧ (looping on off).loops.l0.le = (looping on off).pc) ∧
    ((looping last off).loops.l0.lc = 1 ∧ (looping last off).loops.l0.le = (looping last off).pc) ∧
    ((looping off last).loops.l1.lc = 1 ∧ (looping off last).loops.l1.le = (looping off last).pc ∧
      (looping off last).loops.l0.lc = 0) ∧
    ((looping on last).loops.l1.lc = 1 ∧ (looping on last).loops.l1.le = (looping on last).pc ∧
      (looping on last).loops.l0.lc ≠ 0 ∧ (looping on last).loops.l0.le = (looping on last).pc) := by decide

/-- A delay slot of a branch at 0x100. -/
def slot (taken : Bool) : DelaySlot := { branch := 0x100, target := 0x40, taken := taken, link := none, shOld := 0x21, shLeft := 0 }

theorem witness_RetireGoesWhere_slot : ({ CoreSt.initial with dslot := some (slot true) }).dslot = some (slot true) ∧
    (slot true).taken = true ∧ (slot false).taken = false := by decide

/-- R175: a taken branch in its slot goes to its target, an untaken one past the slot. -/
theorem test_retire_in_slot :
    ({ CoreSt.initial with pc := 0x104, dslot := some (slot true) }).retire.pc = 0x40 ∧
    ({ CoreSt.initial with pc := 0x104, dslot := some (slot false) }).retire.pc = 0x108 := by decide

/-- R171: −2^63 DIV −1 is 2^63 − 1, and a zero divisor gives 0. -/
theorem test_div_corners : aluDiv (BitVec.intMin 64) (-1) = BitVec.intMax 64 ∧ aluDiv 5 0 = 0 := by decide

/-- R166: a write of x0 is discarded. -/
theorem test_add_x0 : ((after (.addk 0 0 0 7) (running id)).core 0).getX 0 = 0 ∧
    ((after (.addk 0 0 0 7) (running id)).core 0).pc = 0x104 := by decide +kernel

theorem test_addk_negative : ((after (.addk 0 3 0 0xFFFF) (running id)).core 0).getX 3 = -1 := by decide +kernel

/-- The fields of an FP word. -/
def fp (rs2 : RegNo) : OpfBits := { rd := 1, rs1 := 2, rs2 := rs2, s := true, rdef := false, rsel := false, rsv := 0 }

theorem witness_FpInstructions : (running id).coreRuns 0 = true ∧ (fp 0).rsv = 0 ∧ (fp 0).rs2 = 0 ∧ (fp 3).rs2 ≠ 0 := by
  decide +kernel

/-- 1.5 + 2.25 = 3.75 in FP32. -/
theorem test_fadd : 
    let c := (after (.fadd 0 (fp 3)) (running fun c => (c.setF 2 0x3FC00000).setF 3 0x40100000)).core 0
    c.getF 1 = 0x40700000 ∧ c.fflags = 0 := by decide +kernel

/-- A running core whose x1 holds an address. -/
def pointing (a : Word64) : State := running (·.setX 1 a)

theorem witness_SramLoadResults :
    let a := (((pointing 0x1FFFF8).core 0).getX 1 + (0#16).signExtend 64).toNat
    (pointing 0x1FFFF8).coreRuns 0 = true ∧ a < 2 ^ 21 ∧ (pointing 0x1FFFF8).coreMayUse 0 a = true ∧ a % 8 = 0 ∧ a % 4 = 0 := by
  decide +kernel
theorem witness_SramStoreResults :
    let s := pointing 0x1FFFF8
    s.coreRuns 0 = true ∧ (s.bankAt 0 0x1FFFF8).owner = 1 ∧ (s.bankAt 0 0x1FFFF8).isOn = true ∧
    s.body.tileOf 0 = some 0 ∧ s.body.callupOf 0 = none := by decide +kernel
theorem witness_SramStoreFrame : (pointing 0x1FFFF8).body.mem.wf = true ∧
    (((pointing 0x1FFFF8).core 0).getX 1 + (0#16).signExtend 64).toNat < 2 ^ 21 := by decide +kernel
theorem witness_SramStoreFrame_next : (after (.s64 0 2 1 0 []) (pointing 0x1FFFF8)).body.mem.wf = true := by decide +kernel
/-- The core's bank 31 with the mesh remote port as its guest, and a command that collides at its last word. -/
theorem witness_SramStoreFrame_clash :
    let s := (pointing 0x1FFFF8).onSite 0 fun t => t.setBank 31 { t.bank 31 with guest := 6 }
    let w := siteBase 0 + 0x1FFFF8
    s.body.mem.wf = true ∧ ((s.body.site 0).bank 31).rival 1 = true ∧ (w - siteBase 0) / 0x10000 = 31 ∧
    siteBase 0 + 0x1FFFF8 < w + 8 ∧ w < siteBase 0 + 0x1FFFF8 + 8 ∧
    (unitWrite { s.env with clash := [w + 3] } 1 0 (0x1FFFF8, 8) s.body.mem s.body).1 = true ∧
    (unitWrite { s.env with clash := [w - 8] } 1 0 (0x1FFFF8, 8) s.body.mem s.body).1 = false := by decide +kernel

/-- R224: the bytes of a store that lose a collision are discarded, and the core retires it. -/
theorem test_store_collides :
    let s := (running fun c => (c.setX 1 0x10004).setX 2 0x0101_0101_0101_0101).onSite 0
      fun t => t.setBank 1 { t.bank 1 with guest := 6 }
    let t := after (.s32 0 2 1 0 [siteBase 0 + 0x10000]) s
    t.body.mem.num (siteBase 0 + 0x10004) 4 = 0 ∧ (t.core 0).pc = 0x104 ∧
    (after (.s32 0 2 1 0 [siteBase 0 + 0x10008]) s).body.mem.num (siteBase 0 + 0x10004) 4 = 0x0101_0101 := by decide +kernel
theorem witness_CoreKeepsMemoryCanonical : (Instr.add 0 1 2 3).isCore = true ∧ (running id).body.mem.wf = true ∧
    (after (.add 0 1 2 3) (running id)).body.mem.wf = true := by decide +kernel

/-- R10: a store and the load that follows it, little-endian. -/
theorem test_store_load : 
    let t := after (.s32 0 2 1 0 []) (running fun c => (c.setX 1 0x10000).setX 2 0x8000_0001)
    t.body.mem.get (siteBase 0 + 0x10000) = 1 ∧ t.body.mem.get (siteBase 0 + 0x10003) = 0x80 ∧
      ((after (.l32s 0 3 1 0) t).core 0).getX 3 = 0xFFFF_FFFF_8000_0001 := by decide +kernel

/-- A running core in squad 0, its page tables as given. -/
def paged (a : Word64) (f : Body → Body) : State :=
  let s := pointing a
  s.withBody (f { s.body with dev.eff := s.body.dev.eff.set (oSqTile 0) 8 })
/-- Squad 0's root table at 0x1000, its tables at 0x2000 and 0x3000, and one 2 MiB page of HBM at 4 MiB. -/
def onePage (kind : Nat) (b : Body) : Body :=
  { b with dev.eff := b.dev.eff.set (oPgCtx 0 0) 0x1001,
           mem := ((b.mem.setNum 0x1000 8 0x2004).setNum 0x2000 8 0x3004).setNum 0x3008 8 (0x400008 + kind) }

theorem witness_LoadStoreTraps :
    (pointing 0x1FFFFF).coreRuns 0 = true ∧ 0x1FFFFF % 8 ≠ 0 ∧ 0x1FFFFF % 4 ≠ 0 ∧
    ((running fun c => c).onSite 0 fun t => t.setBank 31 { t.bank 31 with owner := 2 }).coreRuns 0 = true ∧
    (pointing (2 ^ 48)).coreRuns 0 = true ∧ (pointing (2 ^ 21)).body.squadAt 0 = none ∧
    (paged 0x20_0000 (onePage 1)).body.squadAt 0 = some 0 ∧
    xlate (paged 0x20_0000 (onePage 1)).body 0 0x20_0000 false = .phys 0x400000 ∧
    xlate (paged 0x20_0000 (onePage 1)).body 0 0x20_0000 true = .phys 0x400000 ∧
    (physRead (paged 0x20_0000 (onePage 1)).env (.tile 0) 0x400000 1 (paged 0x20_0000 (onePage 1)).body) =
      (.ok [0], (paged 0x20_0000 (onePage 1)).body) ∧
    (physWrite (paged 0x20_0000 (onePage 1)).env (.tile 0) 0x400000 [0] (paged 0x20_0000 (onePage 1)).body).1 = .ok [] ∧
    (paged 0x20_0000 (onePage 1)).body.retired = false ∧ (paged 0x20_0000 id).body.squadAt 0 = some 0 ∧
    xlate (paged 0x20_0000 id).body 0 0x20_0000 false = .refused := by decide +kernel

/-- A register word of the device set. -/
def csrs (l : List (Nat × Nat)) (s : State) : State :=
  s.withBody { s.body with dev.csr := l.foldl (fun t p => t.set p.1 (BitVec.ofNat 64 p.2)) s.body.dev.csr }

/-- Squad 0 is called up on eight tiles from tile 0, its yield word at 0x8000. -/
def called : State := csrs [(oSq 0 0x28, 2), (oSq 0 8, 7 * 2 ^ 17), (oSq 0 0x10, 0x1000)] (running id)

theorem witness_YieldStoreStopsCore : called.coreRuns 0 = true ∧ called.body.tileOf 0 = some 0 ∧
    called.body.callupOf 0 = some 0 ∧ called.body.yieldWord 0 = 0x8000 ∧ (called.bankAt 0 0x8000).owner = 1 ∧
    (called.bankAt 0 0x8000).powered = true := by decide +kernel

/-- R470: the store to the yield word stops the core at its next boundary. -/
theorem test_yieldStore : ((after (.yieldStore 0 1 []) called).body.site 0).yielded = true ∧
    ((after (.yieldStore 0 1 []) called).core 0).stopped = true := by decide +kernel

theorem witness_BranchResults : (running id).coreRunsAlone 0 = true ∧ (0x1F_FFFC : Int) < 2 ^ 21 ∧
    ((0x100 : Int) + 4 * (0xFFBF#16).toInt < 0) ∧ ((0x100 : Int) + 4 * (0xFFC0#16).toInt = 0) := by decide +kernel

/-- R175: CALL links the address after its delay slot. -/
theorem test_call_links : ((after (.call 0 4) (running id)).core 0).getX 31 = 0x108 ∧
    ((after (.call 0 4) (running id)).core 0).pc = 0x104 ∧
    (((after (.call 0 4) (running id)).core 0).dslot.map (·.target)) = some 0x110 := by decide +kernel

/-- R175: a taken branch below address 0 raises FETCH, cause 0x01. -/
theorem test_branch_out : (((after (.breq 0 0 0 0xFFBF) (running fun c => { c with ie := true, evbase := 0x200 })).core 0).pc = 0x200) ∧
    ((after (.breq 0 0 0 0xFFBF) (running fun c => { c with priv := false })).core 0).lastCause = 1 := by decide +kernel

theorem witness_LoopResults :
    let on : LoopReg := { lc := 2, ls := 0x80, le := 0x110 }
    let s := running fun c => { c with superLoop := { c.superLoop with l0 := on } }
    (running id).coreRunsAlone 0 = true ∧ ((running id).core 0).loops.l0.lc = 0 ∧ ((running id).core 0).loops.l1.lc = 0 ∧
    s.coreRunsAlone 0 = true ∧ (s.core 0).loops.l1.lc = 0 ∧ (s.core 0).loops.l0.lc ≠ 0 ∧
    (s.core 0).pc.toNat + 4 * (4#16).toNat ≤ (s.core 0).loops.l0.le.toNat ∧
    (s.core 0).loops.l0.le.toNat < (s.core 0).pc.toNat + 4 * (5#16).toNat := by decide +kernel

/-- R177: a count of 0 goes on past the end. -/
theorem test_loop_zero : ((after (.loop 0 0 0 false 5) (running id)).core 0).pc = 0x118 ∧
    ((after (.loop 0 1 0 false 5) (running (·.setX 1 3))).core 0).loops.l0 = { lc := 3, ls := 0x104, le := 0x114 } := by
  decide +kernel

/-- A core that waits. -/
def waiting (w : Wait) : State := running fun c => { c with wait := some w }

theorem witness_WaitsAndFences : (running id).coreRunsNoSlot 0 = true ∧
    (running fun c => { c with priv := false, epend := 8 }).coreRunsNoSlot 0 = true ∧
    (waiting (.waitc 3 5)).waitsFor 0 (.waitc 3 5) = true ∧ (waiting (.waitk 5)).waitsFor 0 (.waitk 5) = true ∧
    (waiting .fenceE).waitsFor 0 .fenceE = true ∧ (waiting .fenceA).waitsFor 0 .fenceA = true ∧
    (waiting (.pfence 7)).waitsFor 0 (.pfence (7#32).toNat) = true := by decide +kernel

/-- R189, R190: counters and kickoffs compare by signed distance. -/
theorem test_waits : ((after (.waitc 0 3 false 1 0) (running (·.setX 1 1))).core 0).wait = some (.waitc 3 1) ∧
    ((after (.waitc 0 3 false 1 0) (running (·.setX 1 0xFFFFFFFF))).core 0).pc = 0x104 ∧
    ((after (.waitk 0 0 1 0) (running (·.setX 1 1))).core 0).wait = some (.waitk 1) := by decide +kernel

theorem witness_SpecialRegisters : (running id).coreRuns 0 = true ∧ sprMask 0x000 ≠ none ∧ sprMask 0x003 ≠ none ∧
    sprMask 0x10D ≠ none ∧ sprMask 0x006 = none ∧ sprReadOnlyAtJob 0x004 = true ∧ sprReadOnlyAtJob 0x002 = false ∧
    (running fun c => { c with priv := false }).coreRuns 0 = true ∧ (0xFF : Nat) < 0x100 ∧ sprMask 0xFFF = none ∧ sprMask 0x100 ≠ none ∧
    ((running fun c => { c with shLeft := 2 }).core 0).shLeft ≠ 0 ∧ 8 % 16 ≤ 8 ∧ ¬ 9 % 16 ≤ 8 ∧
    (0x40 &&& (sprMask 0x000).getD 0) ≠ 0x40 ∧ (0x3F &&& (sprMask 0x000).getD 0) = 0x3F := by decide +kernel

/-- R184: the new FMODE is used from the third instruction on, and SPRD of FMODE in the shadow reads the old value. -/
theorem test_fmode_shadow :
    let t := after (.spwr 0 0 1 0) (running (·.setX 1 2))
    (t.core 0).fmode = 2 ∧ (t.core 0).fmodeUsed = 0x21 ∧ ((after (.sprd 0 4 0 0) t).core 0).getX 4 = 0x21 ∧
    ((after (.sprd 0 5 0 0) (after (.sprd 0 4 0 0) (after (.sprd 0 4 0 0) t))).core 0).getX 5 = 2 := by decide +kernel

/-- A core with interrupts pending and enabled. -/
def interrupted (p e : BitVec 3) : State := running fun c => { c with ie := true, ipend := p, ien := e }

theorem witness_TrapsReturnsAndInterrupts : (running id).coreRuns 0 = true ∧ (running id).coreRunsAlone 0 = true ∧
    ((running id).core 0).priv = true ∧ (running fun c => { c with priv := false }).coreRunsAlone 0 = true ∧
    ((interrupted 7 7).core 0).stopped = false ∧ ((interrupted 7 7).core 0).dslot = none ∧
    (((interrupted 7 7).core 0).ipend &&& ((interrupted 7 7).core 0).ien).getLsbD 0 = true ∧
    (((interrupted 7 6).core 0).ipend &&& ((interrupted 7 6).core 0).ien).getLsbD 0 = false ∧
    (((interrupted 7 6).core 0).ipend &&& ((interrupted 7 6).core 0).ien).getLsbD 1 = true ∧
    (((interrupted 7 4).core 0).ipend &&& ((interrupted 7 4).core 0).ien) = 4 ∧ ((interrupted 7 4).core 0).ie = true := by
  decide +kernel

/-- R201: HOST comes before MP; its cause is 0x10. -/
theorem test_interruptEntry : ((after (.interruptEntry 0) (interrupted 5 7)).core 0).excInfo.toNat % 256 = 0x10 ∧
    ((after (.interruptEntry 0) (interrupted 5 7)).core 0).ie = false := by decide +kernel

theorem witness_ExceptionEntry : (0x0A : Nat) < 256 ∧ ((running id).core 0).priv = true ∧ ((running id).core 0).ie = false ∧
    ((interrupted 0 0).core 0).ie = true ∧ ((running fun c => { c with dslot := some (slot true) }).core 0).dslot.isSome = true :=
  by decide +kernel

/-- R203: an exception in TILE_SUPER with IE = 0 stops the core with DOUBLE. -/
theorem test_double : ((after (.trap 0 5 0) (running id)).core 0).double = true ∧
    ((after (.trap 0 5 0) (running id)).core 0).pc = 0x100 ∧
    ((after (.trap 0 5 0) (interrupted 0 0)).core 0).excAddr = 5 := by decide +kernel

-- Banks.

/-- A running core with x1 and x2, at JOB or not. -/
def banking (x y : Word64) (job : Bool) (f : Site → Site := id) : State :=
  (running fun c => { (c.setX 1 x).setX 2 y with priv := !job }).onSite 0 f
/-- Site 0 with one bank changed. -/
def bankOf (i : Nat) (f : Bank → Bank) (t : Site) : Site := t.setBank i (f (t.bank i))

theorem witness_BankInstructions :
    let free := bankOf 7 fun k => { k with owner := 0 }
    let locked := bankOf 31 fun k => { k with lock := true }
    let off := bankOf 31 fun k => { k with pwr := .off, target := 0 }
    (banking 1 0 false).coreRuns 0 = true ∧ (banking 6 0 true).coreRuns 0 = true ∧
    ballocPick ((banking 6 0 false).body.site 0) = none ∧ ballocPick ((banking 6 0 false free).body.site 0) = some 7 ∧
    (banking 31 0 true locked).coreRuns 0 = true ∧ (((banking 31 0 true locked).body.site 0).bank 31).lock = true ∧
    (((banking 31 0 true).body.site 0).bank 31).lock = false ∧ (((banking 31 5 true).body.site 0).bank 31).owner ≠ 5 ∧
    (((banking 31 5 true locked).body.site 0).bank 31).owner ≠ 5 ∧ (((banking 31 1 true locked).body.site 0).bank 31).request 1 ≠ none ∧
    ((banking 31 5 true locked).core 0).priv = false ∧ (((banking 31 1 true).body.site 0).bank 31).owner = 1 ∧
    (banking 31 1 true off).coreRuns 0 = true ∧ (((banking 31 1 true off).body.site 0).bank 31).request 1 = none ∧
    (((banking 31 1 true).body.site 0).bank 31).request 1 =
      some { ((banking 31 1 true).body.site 0).bank 31 with pwr := .retain, target := 1 } ∧
    (((banking 31 1 true).body.site 0).bank 31).waking = false ∧
    (((banking 31 0 true).body.site 0).bank 31).request 0 ≠ none ∧ (32#64).toNat > 31 := by decide +kernel

/-- R217: −2 comes before −3; BALLOC of −1 where no bank is free. -/
theorem test_bank_results :
    ((after (.bhand 0 3 1 2) (banking 31 7 true (bankOf 31 fun k => { k with lock := true }))).core 0).getX 3 = -2 ∧
    ((after (.bhand 0 3 1 2) (banking 31 6 true (bankOf 31 fun k => { k with lock := true }))).core 0).getX 3 = -3 ∧
    ((after (.balloc 0 3 1 2) (banking 1 0 true)).core 0).getX 3 = -1 := by decide +kernel

theorem witness_BallocPicksLowest :
    let t := bankOf 9 (fun k => { k with owner := 0 }) (bankOf 4 (fun k => { k with owner := 0, pwr := .off }) (owned 1 (Site.initial true)))
    ballocPick t = some 9 ∧ ballocPick (bankOf 9 (fun k => { k with owner := 3 }) t) = some 4 ∧
    ballocPick (owned 1 (Site.initial true)) = none ∧ (banking 6 0 true (bankOf 7 fun k => { k with owner := 0 })).coreRuns 0 = true ∧
    ballocPick ((banking 6 0 true (bankOf 7 fun k => { k with owner := 0 })).body.site 0) = some 7 := by decide +kernel

theorem witness_BankPowerStates :
    (Bank.initial true).pwr = .on ∧ ({ Bank.initial true with pwr := .retain }).pwr = .retain ∧
    (Bank.initial false).pwr = .off ∧ State.reset.body.mem.wf = true ∧
    (((at0 (bankOf 31 fun k => { k with pwr := .wakingOff, target := 2 })).body.site 0).bank 31).waking = true ∧
    (0 : Nat) < 408 ∧ 31 < 32 := by decide +kernel

/-- R225: a bank that goes OFF loses its contents. -/
theorem test_bpwr_off :
    let s := (banking 16 0 false).storesSram [] 0 0x100000 [1]
    s.body.mem.get 0x100000_0000 = s.body.mem.get 0x100000_0000 ∧ s.body.mem.get (siteBase 0 + 0x100000) = 1 ∧
    (after (.bpwr 0 3 1 2) s).body.mem.get (siteBase 0 + 0x100000) = 0 := by decide +kernel

theorem witness_BankRegisterWrites : mayWrite pf (oTl 0 0x200) = true ∧ State.reset.body.tileOf 0 ≠ none ∧
    mayWrite .tap (oTl 0 0x200) = false ∧ mayWrite pf (oTl 0 0x228) = true ∧ mayWrite (.host 0 1) (oTl 0 0x228) = false ∧
    bitsOf 0x651F 8 3 = 5 ∧ bitsOf 0x651F 12 3 = 6 ∧ bitsOf 0x651F 0 5 = 31 ∧
    (∀ j, j < 32 → bitsOf 0xAAAA_AAAA_AAAA_AAAA (2 * j) 2 ≠ 3) ∧
    (∀ j, j < 32 → ((State.reset.body.site 0).bank j).request (bitsOf 0xAAAA_AAAA_AAAA_AAAA (2 * j) 2) ≠ none) := by
  decide +kernel

theorem witness_CoreControl : mayWrite pf (oTl 407 0x100) = true ∧ mayWrite pf (oTl 407 0x110) = true ∧
    (State.reset.core 0).stopped = true ∧ (State.reset.body.site 0).yielded = false ∧ State.reset.body.tileOf 0 ≠ none ∧
    ((running id).core 0).stopped = false ∧ ((running id).core 0).dslot = none ∧
    ((running fun c => { c with dslot := some (slot true) }).core 0).dslot ≠ none ∧ pf ≠ .mp ∧
    mayWrite .mp (oTl 0 0x100) = true ∧
    deadlineYielded State.reset.body 0 = false ∧ State.reset.body.tileOf 407 = none := by decide +kernel

/-- R208: a core starts at TL_CORE_PC in TILE_SUPER. -/
theorem test_coreStart :
    let t := after (.coreStart pf 3) (after (.tlCorePcWrite pf 3 0x1003) State.reset)
    (t.core 3).stopped = false ∧ (t.core 3).pc = 0x1000 ∧ (t.core 3).priv = true := by decide +kernel

theorem witness_EngineIssue :
    let full := List.replicate 32 (captureEntry (running id).body 0 0)
    (running id).coreRuns 0 = true ∧ bitsOf (0xA400_0000#32).toNat 26 6 = 0x29 ∧ bitsOf (0xA800_0000#32).toNat 26 6 = 0x2A ∧
    bitsOf (0xAC00_0000#32).toNat 26 6 = 0x2B ∧ bitsOf (0xB000_0000#32).toNat 26 6 = 0x2C ∧
    0x2D ≤ bitsOf (0xB400_0000#32).toNat 26 6 ∧ ((running id).body.site 0).mx.eng.q.length < 32 ∧
    ((running id).onSite 0 fun t => { t with mx.eng.q := full }).coreRuns 0 = true ∧ 32 ≤ full.length ∧
    16 ≤ (full.take 16).length ∧ 8 ≤ ((full.take 8).map SvEntry.issued).length ∧
    ((running id).onSite 0 fun t => { t with vx.eng.q := full.take 16, sv.q := (full.take 8).map .issued, cp.eng.q := full }).coreRuns 0 = true ∧
    bitsOf (0#32).toNat 26 6 < 0x29 ∧ reservedWord (0#32).toNat = false ∧ bitsOf (0x5400_0000#32).toNat 26 6 = 0x15 := by decide +kernel

-- The matrix engine.

/-- A descriptor of a whole unscaled tensor (R75). -/
def tensor (fmt addr rows cols stride : Nat) : Nat :=
  fmt + 0x3F800000 * 2 ^ 128 + addr * 2 ^ 160 + rows * 2 ^ 224 + cols * 2 ^ 240 + stride * 2 ^ 256 + cols * 2 ^ 352 + rows * 2 ^ 384
/-- The same with a kickoff. -/
def kicked (d k : Nat) : Nat := d + k * 2 ^ 32 + 2 ^ 416

/-- An issued engine instruction. -/
def issued (major func g rest : Nat) (a b : Word64) : QEntry :=
  { word := BitVec.ofNat 32 (major * 2 ^ 26 + func * 2 ^ 22 + g * 2 ^ 19 + rest), a := a, b := b, sr := false, sren := false,
    priv := true, key := 0 }

/-- Words of SRAM of site 0, each 64 bytes. -/
def withDescs (l : List (Nat × Nat)) (s : State) : State :=
  s.withBody { s.body with mem := l.foldl (fun m p => m.setNum (siteBase 0 + p.1) 64 p.2) s.body.mem }

/-- Site 0 with its banks the matrix engine's, one instruction in the queue, and descriptors at 0x40, 0x80 and 0xC0. -/
def mxAt (q : QEntry) (f : MxSt → MxSt) : State :=
  withDescs [(0x40, tensor 1 0x1000 2 2 8), (0x80, tensor 1 0x2000 2 2 8), (0xC0, kicked (tensor 1 0x1000 2 2 8) 0),
      (0x100, kicked (tensor 1 0x1000 2 2 8) 1)]
    (at0 fun t => let t := owned 2 t; { t with mx := f { t.mx with eng.q := [q] } })
/-- An FP32 group of two rows and columns. -/
def grp : Group := { cls := 0, dual := false, desc := tensor 1 0x1000 2 2 8 }

theorem witness_MatrixGroupInstructions :
    let two := fun x : MxSt => (x.setGroup 7 (some grp)).setGroup 0 (some grp)
    (mxAt (issued 0x29 0 7 0 0x40 0) id).mxRuns 0 (issued 0x29 0 7 0 0x40 0) 0 = true ∧
    (mxAt (issued 0x29 5 7 0 0 0) id).mxRuns 0 (issued 0x29 5 7 0 0 0) 5 = true ∧
    (mxAt (issued 0x29 3 0 0xE00 0 0) two).mxRuns 0 (issued 0x29 3 0 0xE00 0 0) 3 = true ∧
    ((mxAt (issued 0x29 3 0 0xE00 0 0) two).body.site 0).mx.group 0 = some grp ∧
    ((mxAt (issued 0x29 3 0 0xE00 0 0) two).body.site 0).mx.group 7 = some grp ∧
    (issued 0x29 3 0 0xE00 0 0).mxH = 7 ∧
    (mxAt (issued 0x29 6 0 0 0x10000 0) id).mxRuns 0 (issued 0x29 6 0 0 0x10000 0) 6 = true ∧
    ((mxAt (issued 0x29 6 0 0 0x10000 0) id).body.site 0).mx.drains = [] := by decide +kernel

/-- R95: OPEN binds its group, free before. -/
theorem test_mxOpen : (((after (.mxOpen 0) (mxAt (issued 0x29 0 7 0 0x40 0) id)).body.site 0).mx.group 7) = some grp ∧
    (((after (.mxOpen 0) (mxAt (issued 0x29 0 7 0 0x40 0) id)).body.site 0).mx.eng.done) = some 0 := by decide +kernel

theorem witness_MatrixDataInstructions :
    let one := fun x : MxSt => x.setGroup 0 (some grp)
    let mma := issued 0x29 1 0 0 0x40 0x80
    let load := issued 0x29 4 0 0 0x40 0
    let close := issued 0x29 2 0 0 0 0
    (mxAt mma one).mxRuns 0 mma 1 = true ∧ ((mxAt mma one).body.site 0).mx.group 0 = some grp ∧
    mmaKind (TDesc.ofNat ((mxPeek (mxAt mma one).body 0 mma).getD 0 0)).fmt
      (TDesc.ofNat ((mxPeek (mxAt mma one).body 0 mma).getD 1 0)).fmt = some (0, 8) ∧
    (mxAt load one).mxRuns 0 load 4 = true ∧ ((mxAt load one).body.site 0).mx.group 0 = some grp ∧
    (mxAt close one).mxRuns 0 close 2 = true ∧ ((mxAt close one).body.site 0).mx.group 0 = some grp ∧
    ((mxAt close one).body.site 0).mx.accmode = false ∧ digWaits (mxAt close one).body (drainRuns grp) = false ∧
    (mxAt close fun x => one { x with accmode := true }).mxRuns 0 close 2 = true ∧
    ((mxAt close fun x => one { x with accmode := true }).body.site 0).mx.drains = [] ∧
    (mxAt close fun x => one { x with accmode := true, drains := [{ g := 0, half := 4, grp := grp, entry := close }] }).mxRuns 0 close 2 = true ∧
    ((mxAt close one).core 0).issue = none := by decide +kernel

/-- R102: MX.FILL of an image that is all zero checks its bytes and fails them. -/
theorem witness_MatrixDataInstructions_fill :
    let fill := issued 0x29 7 0 0 0x10000 0
    let s := mxAt fill fun x => { x with eng.launched := true, eng.cap := some [] }
    s.mxRuns 0 fill 7 = true ∧ (s.body.site 0).mx.drains = [] ∧
    imageOk (s.body.mem.slice (siteBase 0 + 0x10000) mxImageBytes) (s.body.site 0).mx = false ∧
    imageOk (mxImage MxSt.initial) MxSt.initial = true := by decide +kernel

/-- R83 to R90: a product of ones adds the inner extent: 1·1 + 1·1 = 2.0. -/
theorem test_mxMma :
    let ones := fun (m : Mem) (a : Nat) => (List.range 4).foldl (fun m i => m.setNum (siteBase 0 + a + 4 * i) 4 0x3F800000) m
    let s := mxAt (issued 0x29 1 0 0 0x40 0x80) fun x => x.setGroup 0 (some grp)
    let s := s.withBody { s.body with mem := ones (ones s.body.mem 0x1000) 0x2000 }
    let x := ((after (.mxMma 0) s).body.site 0).mx
    x.acc.num (accAddr 0 0 1 1) 4 = 0x40000000 ∧ x.passes = 1 := by decide +kernel

theorem witness_MatrixQueue :
    let soon := issued 0x29 0 0 0 0xC0 0
    let late := issued 0x29 0 0 0 0x100 0
    let ended := fun st => mxAt soon fun x => { x with eng.done := some st }
    let shadow := mxAt soon fun x => { x with accmode := true, drains := [{ g := 2, half := 4, grp := grp, entry := soon }] }
    ((mxAt soon id).body.site 0).mx.eng.head = some soon ∧
    kickoffsOf (mxPeek (mxAt soon id).body 0 soon) = [0] ∧ armedAt (mxAt soon id).body (detOf 1 0) = false ∧
    kickDue (mxAt soon id).env.now 0 = true ∧ kickLate (mxAt soon id).env.now 0 = false ∧
    mxStatus ((mxAt soon id).body.site 0) (mxPeek (mxAt soon id).body 0 soon) soon = mxOk ∧
    kickoffsOf (mxPeek (mxAt late id).body 0 late) = [1] ∧ kickDue (mxAt late id).env.now 1 = false ∧
    ((ended mxBank).body.site 0).mx.eng.done = some 6 ∧ ((ended mxOk).core 0).issue = none ∧ ((ended mxOk).core 0).wait = none ∧
    ((shadow.body.site 0).mx.drains.find? fun e => e.g == 2).isSome = true ∧ drainWaits shadow.body 0 grp = false ∧
    armedAt shadow.body (detOf 2 0) = false ∧
    mayWrite pf (oTl 407 0x1008) = true ∧ mayWrite pf (oTl 407 0x1000) = true ∧ mayWrite (.host 0 1) (oTl 0 0x1000) = false ∧
    (State.reset.body.site 0).mx.idle false = true ∧ (State.reset.body.site 0).mx.eng.q = [] ∧ (State.reset.body.site 0).mx.allFree = true ∧
    ((mxAt soon id).body.site 0).mx.idle false = false := by decide +kernel

/-- R105, R109: an instruction that fails halts the engine, sets EPEND bit 0 and keeps its record in MX_ERR. -/
theorem test_mxComplete_halts :
    let t := after (.mxComplete 0) (mxAt (issued 0x29 0 5 0x20 0 0) fun x => { x with eng.done := some mxShape })
    (t.body.site 0).mx.eng.halted = true ∧ (t.core 0).epend = 1 ∧ (t.core 0).cc.get 0 1 = 1 ∧
    (t.body.site 0).mx.eng.err = 0x8000_0205_A428_0020 := by decide +kernel

-- The vector engine.

/-- Site 0 with its banks the vector engine's, one instruction in the queue, a program header and words at 0x10000, and
streams at 0x40 and 0x80, the second with a kickoff. -/
def vxAt (q : QEntry) (f : VxSt → VxSt) : State :=
  let s := withDescs [(0x40, tensor 1 0x1000 1 4 16), (0x80, kicked (tensor 1 0x1000 1 4 16) 0), (0x10000, 0x1101)]
    (at0 fun t => let t := owned 3 t; { t with vx := f { t.vx with eng.q := [q] } })
  s.withBody { s.body with mem := s.body.mem.setNum (siteBase 0 + 0x10008) 8 0 }

/-- A program of one LD to v0 from stream 0, FP32, in slot 7. -/
def loads (x : VxSt) : VxSt := { x with hdr := x.hdr.set 7 0x1101, prog := x.prog.set 448 0 }

theorem witness_VectorInstructions :
    let run := issued 0x2A 0 7 0 0x40 4
    let pload := issued 0x2A 1 7 0 0x10000 0
    let spill := issued 0x2A 2 0 0 0x10000 0
    let c : VxCtx := { e := (vxAt run loads).env, s := 0, q := run, wf := 1, dual := false,
                       streams := (vxPeek (vxAt run loads).body 0 run).map TDesc.ofNat, n := 4 }
    (vxAt run loads).vxRuns 0 run 0 = true ∧ ((vxAt run loads).body.site 0).vx.program 7 = [0] ∧
    digWaits (vxAt run loads).body (vxStoreRuns c [0]) = false ∧ (runStrips c [0] (vxAt run loads).body).lost = none ∧
    (vxAt pload id).vxRuns 0 pload 1 = true ∧ hdrLen ((vxAt pload id).body.mem.num (siteBase 0 + 0x10000) 8) = 1 ∧
    (vxAt spill id).vxRuns 0 spill 2 = true := by decide +kernel

/-- PLOAD of a good program whose words are the engine's, of one that is not good, and of words in another unit's bank. -/
theorem witness_VectorInstructions_pload :
    let pload := issued 0x2A 1 7 0 0x1FFF8 0
    let s := fun (w : Nat) (u : Nat) =>
      let s := (vxAt pload id).onSite 0 fun t => t.setBank 2 { t.bank 2 with owner := u }
      s.withBody { s.body with mem := s.body.mem.setNum (siteBase 0 + 0x1FFF8) 8 w }
    let owned := fun s : State => (s.body.site 0).ownsAll 3 [(0x1FFF8 + 8, 8 * imageLen 0x1101)]
    (s 0x1101 3).vxRuns 0 pload 1 = true ∧ owned (s 0x1101 3) = true ∧ progOk 0x1101 [0] = true ∧ progOk 0x1F01 [0] = false ∧
    imageLen 0x1F01 = 1 ∧ (s 0x1101 2).vxRuns 0 pload 1 = true ∧ owned (s 0x1101 2) = false ∧
    (((after (.vxPload 0) (s 0x1F01 2)).body.site 0).vx.eng.done) = some mxBank ∧
    (((after (.vxPload 0) (s 0x1F01 3)).body.site 0).vx.eng.done) = some vxProg := by decide +kernel

/-- R157: FILL, launched, of an image in memory. -/
theorem witness_VectorInstructions_fill :
    let fill := issued 0x2A 3 0 0 0x20000 0
    (vxAt fill fun x => { x with eng.launched := true, eng.cap := some [] }).vxRuns 0 fill 3 = true := by decide +kernel

/-- R139, R144: LD of four ones fills lanes 0 to 3 and leaves the rest at +0. -/
theorem test_vxRun_loads :
    let s := vxAt (issued 0x2A 0 7 0 0x40 4) loads
    let s := s.withBody { s.body with mem := s.body.mem.setNum (siteBase 0 + 0x100C) 4 0x3F800000 }
    let x := ((after (.vxRun 0 []) s).body.site 0).vx
    x.lane 1 0 3 = 0x3F800000 ∧ x.lane 1 0 4 = 0 ∧ x.eng.done = some 0 := by decide +kernel

theorem witness_VectorQueue :
    let soon := issued 0x2A 0 7 0 0x80 4
    let s := vxAt soon loads
    let late := s.withBody { s.body with mem := s.body.mem.setNum (siteBase 0 + 0x84) 4 1 }
    (s.body.site 0).vx.eng.head = some soon ∧ kickoffsOf (vxPeek s.body 0 soon) = [0] ∧
    vxStatus (s.body.site 0) (vxPeek s.body 0 soon) soon = mxOk ∧
    kickDue s.env.now 0 = true ∧ kickLate s.env.now 0 = false ∧
    kickoffsOf (vxPeek late.body 0 soon) = [1] ∧ kickDue late.env.now 1 = false ∧
    ((vxAt soon fun x => { x with eng.done := some vxProg }).body.site 0).vx.eng.done = some 5 ∧
    (s.core 0).issue = none ∧ (s.core 0).wait = none ∧ mayWrite pf (oTl 407 0x2000) = true := by decide +kernel

/-- R160, R163: an instruction that fails halts the engine, sets EPEND bit 1 and keeps its record with the position. -/
theorem test_vxComplete_halts :
    let t := after (.vxComplete 0) (vxAt (issued 0x2A 0 7 0x20 0 0) fun x => { x with eng.done := some vxProg, uop := 3 })
    (t.body.site 0).vx.eng.halted = true ∧ (t.core 0).epend = 2 ∧ (t.core 0).cc.get 0 1 = 1 ∧
    (t.body.site 0).vx.eng.err = 0x8000_0503_A838_0020 := by decide +kernel

-- The sparse-solver sequencer.

/-- Site 0 with its banks the solver's. -/
def svAt (f : SvSt → SvSt) : State := at0 fun t => let t := owned 4 t; { t with sv := f t.sv }
/-- A launch of run 1 of tile 0 on its own tile. -/
def launch (desc : Nat) : SvLaunch := { run := { tile := 0, no := 1 }, desc := desc, word := 0xAC00_0000, tiles := [0] }
/-- Its part. -/
def part (desc : Nat) (f : SvPart → SvPart) : SvPart := f (SvPart.fresh (launch desc) true)
/-- The header of an image of one row on one tile, FP64, 320 bytes long. -/
def header : Nat := 0x5356_0001 + 2 ^ 32 + 2 ^ 64 + 2 ^ 100 + 320 * 2 ^ 320
/-- That image at 0x10000 in slot 0, its section 0 with one record, a FENCE that orders nothing. -/
def loaded (f : SvSt → SvSt) : State :=
  let s := withDescs [(0x10000, header)] (svAt fun x => f { x with slots := x.slots.set 0 (some { base := 0x10000, hdr := header }) })
  s.withBody { s.body with mem := (s.body.mem.setNum (siteBase 0 + 0x10084) 4 1).setNum (siteBase 0 + 0x10100) 1 8 }

theorem witness_SolverLaunch :
    let q := fun func rest => issued 0x2B func 0 rest 0x10000 0
    let s := fun func rest => loaded fun x => { x with q := [.issued (q func rest)] }
    let l : Nat × SvLaunch := (0, { launch 0 with run := { tile := 5, no := 9 }, tiles := [5, 0] })
    let fwd := loaded fun x => { x with q := [.forwarded l.2] }
    let at_ := fun (d : Nat) (f : SvSt → SvSt) => loaded fun x => f { x with q := [.issued (q 0 0)], part := some (part d id) }
    let ko := 2 ^ 15
    armedAt (s 1 0).body (detOf 1 0) = false ∧ armedAt (s 1 0).body (detOf 4 0) = false ∧ ((s 1 0).core 0).issue = none ∧
    ((s 1 0).core 0).wait = none ∧ svHead (s 1 0xF00).body 0 = some (q 1 0xF00) ∧ svEncodingOk (q 1 0xF00) = true ∧
    (q 1 0xF00).svFunc = 1 ∧ ((s 1 0).body.site 0).ownsAll 4 [(0x10000, 64)] = true ∧
    ((s 1 0).body.site 0).ownsAll 4 [(0x10000, max 64 (SvHdr.ofNat (descAt (s 1 0).body.mem 0 0x10000)).len)] = true ∧
    ((s 1 0).body.site 0).wakingAny [(0x10000, max 64 (SvHdr.ofNat (descAt (s 1 0).body.mem 0 0x10000)).len)] = false ∧
    ((s 1 0).body.site 0).wakingAny [(0x10000, 64)] = false ∧ svLaunchWaits (s 0 0).body 0 0x10000 = false ∧
    ((s 0 0).body.site 0).sv.slots.get none 0 = some { base := 0x10000, hdr := header } ∧
    ((s 0 0).body.site 0).ownsAll 4 [svTableOf { base := 0x10000, hdr := header }] = true ∧
    (fwd.body.site 0).sv.q = [.forwarded l.2] ∧ (fwd.body.site 0).sv.part = none ∧ (fwd.body.site 0).sv.halted = false ∧
    ((at_ 0 id).body.site 0).wakingAny (svLooksAt ((at_ 0 id).body.site 0) ((at_ 0 id).body.svImage 0 0)) = false ∧
    ((at_ 0 id).body.site 0).sv.told (part 0 id).run = false ∧
    svHead (s 2 0xF00).body 0 = some (q 2 0xF00) ∧ svEncodingOk (q 2 0xF00) = true ∧ (q 2 0xF00).svFunc = 2 ∧
    svHead (s 0 0).body 0 = some (q 0 0) ∧ svEncodingOk (q 0 0) = true ∧ (q 0 0).svFunc = 0 ∧
    svReaches (s 0 0).body 0 0 = true ∧ svReaches (s 0 0).body 0 l.1 = true ∧ ((s 0 0).body.site 0).sv.q.length < 8 ∧
    svLaunchStatus ((at_ 0 id).body.site 0) (at_ 0 id).body.mem 0 ((at_ 0 id).body.svImage 0 0) (SvDesc.ofNat 0) true = mxOk ∧
    svLaunchStatus ((at_ 0 id).body.site 0) (at_ 0 id).body.mem 0 ((at_ 0 id).body.svImage 0 1) (SvDesc.ofNat (2 ^ 16)) true =
      svSched ∧
    svLaunchStatus ((at_ ko id).body.site 0) (at_ ko id).body.mem 0 ((at_ ko id).body.svImage 0 0) (SvDesc.ofNat ko) true = mxOk ∧
    (SvDesc.ofNat ko).koen = true ∧ kickDue (at_ ko id).env.now (SvDesc.ofNat ko).kickoff = true ∧
    kickLate (at_ ko id).env.now (SvDesc.ofNat ko).kickoff = false ∧
    kickDue (at_ ko id).env.now (SvDesc.ofNat (ko + 2 ^ 32)).kickoff = false ∧ (part 0 id).started = false ∧
    (part 0 id).ended = none ∧ ((at_ 0 id).body.site 0).sv.failed = [] := by decide +kernel

/-- R246: a launch from an image of one tile forwards nothing; R247: a part with an empty slot ends with REJ_SCHED. -/
theorem test_svLaunch :
    let t := after (.svLaunch 0) (svAt fun x => { x with q := [.issued (issued 0x2B 0 0 0 0x10000 0)] })
    ((t.body.site 0).sv.part.map fun p => p.run) = some { tile := 0, no := 1 } ∧ t.body.dev.flight.launches = [] ∧
    (((after (.svPartStart 0 []) t).body.site 0).sv.part.map fun p => p.ended) = some (some 3) := by decide +kernel

/-- A piece of four bytes for tile 0. -/
def piece (ord : Nat) : SvPiece := { src := 5, dst := 0, run := { tile := 0, no := 1 }, ord := ord, body := .send 0 [1, 2, 3, 4] [] }
/-- A tile with a part and traffic that has come for it. -/
def traffic (p : SvPart) (f : SvFlight) : State :=
  let s := loaded fun x => { x with q := [.issued (issued 0x2B 0 0 0 0x10000 0)], part := some p }
  s.withBody { s.body with dev.flight := f }

theorem witness_SolverTraffic :
    let run : RunId := { tile := 0, no := 1 }
    let inSect := part 0 fun p => { p with started := true, inSect := true, ord := 2 }
    let gone := part 0 fun p => { p with ended := some mxOk }
    let done : DonePiece := { run := run, tile := 5, status := 0, nonfinite := false, nf := 0, late := false }
    let waits := part 0 fun p => { p with started := true, waiting := true }
    let s := traffic inSect { SvFlight.initial with pieces := [piece 2], dones := [(0, done)], fails := [(0, run, 5)] }
    let x := (s.body.site 0).sv
    svReaches s.body 0 (piece 2).dst = true ∧ pieceFits x (piece 2) = true ∧ pieceFits x (piece 3) = false ∧
    pieceOver s.body 0 (piece 3) = false ∧ x.heldBytes + (piece 3).size ≤ 0x4000 ∧
    pieceFits ((traffic gone SvFlight.initial).body.site 0).sv (piece 2) = false ∧
    pieceOver (traffic gone SvFlight.initial).body 0 (piece 2) = true ∧
    ((svGo (traffic waits SvFlight.initial).env 0 (releasePieces 0 (traffic waits SvFlight.initial).body)).part 0).isSome = true ∧
    pieceWaits (s.body.site 0) (piece 2) = false ∧
    waits.ended = none ∧ s.body.dev.flight.dones.head? = some (0, done) ∧ inSect.launcher = true ∧ inSect.run = done.run ∧
    s.body.dev.flight.fails.head? = some (0, run, 5) ∧ x.failed = [] := by decide +kernel

theorem witness_SolverEnds :
    let ends := fun (launcher closed : Bool) => part 0 fun p => { p with ended := some mxOk, closed := closed, launcher := launcher }
    let s := traffic (ends true true) SvFlight.initial
    (s.core 0).issue = none ∧ (s.core 0).wait = none ∧ (s.body.site 0).sv.part = some (ends true true) ∧
    (ends true false).closed = false ∧ (ends false false).launcher = false ∧ (ends true true).ended = some mxOk ∧
    (ends true true).d.ren = false ∧ (ends true true).launch.tiles.length - 1 ≤ 0 ∧
    ((s.body.site 0).sv.dones.filter fun d => d.run == (ends true true).run) = [] ∧
    (s.body.site 0).sv.told (ends true true).run = false ∧
    (let p := part (2 ^ 25 + 0x2_0000 * 2 ^ 384) fun p => { p with ended := some mxOk, closed := true }
     let u := traffic p SvFlight.initial
     p.d.ren = true ∧ p.d.raddr % 8 = 0 ∧ (u.body.site 0).ownsAll 4 [(p.d.raddr, 32)] = true ∧
     (u.body.site 0).wakingAny [(p.d.raddr, 32)] = false ∧ u.env.lostWords u.body 4 0 (p.d.raddr, 32) = []) ∧
    mayWrite pf (oTl 407 0x3000) = true := by decide +kernel

-- HBM, faults and the pager.

/-- Stack 11 with one spare lane and the patrol scrub on. -/
def stack : State := csrs [(oHm 11 0, 0x1000), (oHm 11 0x18, 0x10000)] State.reset

theorem witness_HbmControllers : (11 : Nat) < 12 ∧ stackLost stack.body 11 = false ∧
    armedAt stack.body (detOf 7 11) = false ∧ armedAt stack.body (detOf 8 11) = false ∧
    stack.body.flag (oHm 11 0x18) 16 = true ∧ stack.body.dev.scrub.get 0 11 < 2 ^ 30 ∧
    stack.body.field (oHm 11 0) 12 4 = 1 ∧ freeSpare stack.body 11 = some 0 ∧ (csrs [(oHm 11 0, 0)] State.reset).body.field (oHm 11 0) 12 4 = 0 ∧
    stackLost (csrs [(oHm 11 0, 0)] State.reset).body 11 = false ∧ stack.body.retired = false ∧ (stack.core 407).dslot = none := by decide +kernel

/-- R278: the repaired lane is kept with its VALID bit, and the stack's next scrub line follows. -/
theorem test_laneRepair :
    (after (.laneRepair 11 2047) stack).body.csr (oHm 11 0x40) = 0x8000_0000_0000_07FF ∧
    (after (.scrubRead 11) stack).body.dev.scrub.get 0 11 = 1 := by decide +kernel

/-- A fault record of context 7 with a core of tile 0 that stalls on its page, or with none. -/
def faulting (more : List PageFault) (stalled : Bool) : State :=
  let r : PageFault := { page := 1, va := 0x20_0000, reason := 1 }
  let m : MemStall := { op := { store := false, size := 8, signed := false, fp := false, rd := 3, rs1 := 1, imm := 0 },
                        word := 0, addr := 0x20_0000, paged := true }
  let s := running fun c => { c with priv := false, mstall := if stalled then some m else none }
  s.withBody { s.body with dev.eff := s.body.dev.eff.set (oSqTile 0) 15,
                           dev.pg := { s.body.dev.pg with faults := s.body.dev.pg.faults.set 7 [r],
                                                          extra := s.body.dev.pg.extra.set 7 more } }

theorem witness_PageFaults :
    mayCommand State.reset.body pf 7 = true ∧ State.reset.body.dev.pg.faults.get [] 7 = [] ∧
    mayCommand State.reset.body .tap 7 = false ∧ (faulting [] true).body.dev.pg.faults.get [] 7 ≠ [] ∧
    ((List.range 408).all fun m => coreStalls (faulting [] true).body 7 1 m == decide (m = 0)) = true ∧
    ((List.range 408).all fun m => !coreStalls (faulting [] false).body 7 1 m) = true ∧
    ((faulting [] true).core 0).mstall.isSome = true ∧ ((faulting [] true).core 0).priv = false ∧
    (faulting [] true).body.dev.pg.extra.get [] 7 = [] := by decide +kernel

/-- R285: FAULT_FAIL gives the stalled load DATA_FAULT 0x07 at its address. -/
theorem test_faultFail :
    let t := after (.faultFail pf 7) (faulting [] true)
    (t.core 0).excInfo.toNat % 256 = 7 ∧ (t.core 0).excAddr = 0x20_0000 ∧ t.body.dev.pg.faults.get [] 7 = [] := by decide +kernel

/-- A context 0 of one page at VA 2 MiB with its leaf, its ring in that page, and a directive in progress. -/
def directing (leaf : Nat) (d : Option Dir) (regs : List (Nat × Nat)) : State :=
  let s := csrs ((oPgCtx 0 3, 0x20_0000) :: regs) State.reset
  s.withBody { s.body with
    dev.eff := s.body.dev.eff.set (oPgCtx 0 0) 0x1001,
    dev.pg := { s.body.dev.pg with dirs := s.body.dev.pg.dirs.set 0 d },
    mem := ((s.body.mem.setNum 0x1000 8 0x2004).setNum 0x2000 8 0x3004).setNum 0x3008 8 leaf }
/-- The directive `op` on that page. -/
def directive (op : Nat) (f : Dir → Dir) : Option Dir :=
  some (f { slot := 0, rcd := op + 0x20_0000 * 2 ^ 64 + 2 ^ 128 + 2 ^ 255, started := true, todo := [0x20_0000],
            budgetWait := false, status := 0, result := false })

theorem witness_Directives :
    let ring := directing 0x40_0009 none []
    let slot := List.replicate 31 (0 : Byte) ++ [0x80]
    let full := ring.withBody { ring.body with mem := ring.body.mem.write 0x40_0000 slot }
    let fresh := directive 1 fun d => { d with started := false, todo := [] }
    let timed := directive 1 fun d => { d with started := false, todo := [], rcd := d.rcd + 2 ^ 16 + 2 ^ 32 }
    let moving := directing 0x40_000B fresh []
    let ended := directing 0x40_0009 (directive 1 fun d => { d with todo := [], rcd := d.rcd + 2 ^ 17 }) []
    mayCommand ring.body pf 0 = true ∧ (directing 0x40_0009 fresh []).body.dir 0 ≠ none ∧ ring.body.dir 0 = none ∧
    ring.body.retired = false ∧
    vaRead ring.env 0 (whoRing 0) (dirSlotVa ring.body 0) 32 ring.body = (.ok (List.replicate 32 0), ring.body) ∧
    vaRead full.env 0 (whoRing 0) (dirSlotVa full.body 0) 32 full.body = (.ok slot, full.body) ∧
    bitOf (ofBytes slot) 255 = true ∧ bitOf (ofBytes (List.replicate 32 (0 : Byte))) 255 = false ∧
    (fresh.map fun d => (d.bad, d.started)) = some (false, false) ∧
    (timed.map fun d => (bitOf d.rcd 16, kickDue ring.env.now (bitsOf d.rcd 32 32), d.bad)) = some (true, false, false) ∧
    (fresh.map fun d => d.pages.any fun va => (walk moving.body 0 va).kind == .transit) = some true ∧
    (fresh.map fun d => d.pages.any fun va => (walk ring.body 0 va).kind == .transit) = some false ∧
    ended.body.dev.pg.moves = [] ∧
    ((ended.body.dir 0).map fun d => (bitOf d.rcd 17, bitsOf d.rcd 160 16, d.todo)) = some (true, 0, []) ∧
    ((ended.body.dir 0).map fun d =>
      (closeSlot ended.env 0 (dirSlotVa ended.body 0) d.done ended.body).1) = some (.ok []) := by decide +kernel

/-- R286: a kick takes the VALID slot at the head. -/
theorem test_pgDirKick :
    let ring := directing 0x40_0009 none []
    let full := ring.withBody { ring.body with mem := ring.body.mem.write 0x40_0000 (List.replicate 31 (0 : Byte) ++ [0x80]) }
    (((after (.pgDirKick pf 0) full).body.dir 0).map fun d => d.rcd) = some (2 ^ 255) ∧
    (after (.pgDirKick pf 0) ring).body.dir 0 = none := by decide +kernel

/-- A move of that page in progress, its frame of host memory at 0x4000_0000_0000. -/
def moving (acks : List Nat) (regs : List (Nat × Nat)) : State :=
  let s := directing 0x40_000B (directive 1 id) regs
  s.withBody { s.body with dev.pg.moves := [{ q := 0, va := 0x20_0000, entry := 0x4000_0000_000A, src := 0x4000_0000_0000,
                                              dst := 0x40_0000, toHbm := true, waitAcks := acks }] }

theorem witness_PageActions :
    let host := directing 0x4000_0000_000A (directive 1 id) [(oPgCtx 0 1, 1), (oPgPoolSize 0, 2 ^ 24 + 1)]
    let hbm := fun op => directing 0x40_0009 (directive op id) [(oPgPoolSize 1, 2 ^ 24 + 1)]
    let absent := directing 8 (directive 3 id) [(oPgCtx 0 1, 1), (oPgPoolSize 1, 2 ^ 24 + 1)]
    let pinned := directing 0x4000_0000_002A (directive 1 id) []
    let waits := directing 8 (directive 3 fun d => { d with budgetWait := true }) [(oPgCtx 0 1, 1)]
    (host.body.dir 0).isSome = true ∧ (walk host.body 0 0x20_0000).kind = .host ∧
    moveRoom host.body (walk host.body 0 0x20_0000) = true ∧ budgetOk host.body 0 = true ∧
    budgetOk (directing 0x4000_0000_000A (directive 1 id) []).body 0 = false ∧
    entryPin (walk host.body 0 0x20_0000).entry = false ∧ portOf (entryAddr (walk host.body 0 0x20_0000).entry) = 0 ∧
    poolHas host.body 0 = true ∧ poolHas (directing 0x4000_0000_000A (directive 1 id) []).body 0 = false ∧
    entryPin (walk pinned.body 0 0x20_0000).entry = true ∧ (walk pinned.body 0 0x20_0000).kind = .host ∧
    poolHas absent.body (bitsOf 0x20_0000 21 1) = true ∧ armedClass host.body 6 = false ∧
    (List.range 12).all (fun k => !stackLost host.body k) = true ∧
    (walk (hbm 1).body 0 0x20_0000).kind = .hbm ∧ moveRoom (hbm 2).body (walk (hbm 2).body 0 0x20_0000) = true ∧
    (walk absent.body 0 0x20_0000).kind = .absent ∧ budgetOk absent.body 0 = true ∧
    ((hbm 4).body.dir 0).map Dir.op = some 4 ∧ ((hbm 5).body.dir 0).map Dir.op = some 5 ∧
    ((hbm 6).body.dir 0).map Dir.op = some 6 ∧ ((waits.body.dir 0).map fun d => d.budgetWait) = some true ∧
    stopBusy (moving [419] []).body 419 0x4000_0000_0000 = false ∧
    ((List.range 408).all fun n => ((moving [] []).core n).mstall.isNone) = true ∧ hostUp (moving [] [(oHiPort 0, 2)]).body 0 = true ∧
    hostUp (moving [] []).body 0 = false := by decide +kernel

/-- Where only frame 0 of HBM is used, a frame is free whatever the open value is. -/
theorem takeFrame_zero (b : Body) (hu : usedFrames b = [0, 0, 0]) : ∃ f c, takeFrame b = (some f, c) := by
  unfold takeFrame Body.freshBelow
  rw [hu]
  have hn : Config.freeCount b.free % hbmFrames < 393216 := Nat.mod_lt _ (by decide)
  generalize Config.freeCount b.free % hbmFrames = n at hn
  have hr : List.range ([0, 0, 0].length + 1) = [0, 1, 2, 3] := rfl
  by_cases h : n = 0
  · subst h; exact ⟨_, _, rfl⟩
  · have h0 : (n + 0) % hbmFrames = n := Nat.mod_eq_of_lt hn
    refine ⟨n * 0x20_0000, { b with free := b.free + 1 }, ?_⟩
    simp only [hr, List.map_cons, h0, List.find?_cons]
    simp [h]

/-- So is the one frame of a pool of one. -/
theorem takeHostFrame_one (b : Body) (p : Nat) (h1 : b.field (oPgPoolSize p) 0 24 = 1) (h2 : b.field (oPgPoolSize p) 24 24 = 1)
    (h3 : b.dev.pg.hostUsed = []) : ∃ f c, takeHostFrame p b = (some f, c) := by
  unfold takeHostFrame Body.freshBelow
  simp [h1, h2, h3, Nat.mod_one]
/-- Frames are there to be taken: from HBM whatever frame the open value names first, and from a pool of one frame. -/
theorem witness_PageActions_frames :
    let host := directing 0x4000_0000_000A (directive 1 id) [(oPgCtx 0 1, 1), (oPgPoolSize 0, 2 ^ 24 + 1)]
    let hbm := directing 0x40_0009 (directive 2 id) [(oPgPoolSize 1, 2 ^ 24 + 1)]
    (∃ f b, takeFrame host.body = (some f, b)) ∧ (∃ f b, takeHostFrame (bitsOf 0x20_0000 21 1) hbm.body = (some f, b)) := by
  exact ⟨takeFrame_zero _ (by decide +kernel), takeHostFrame_one _ _ (by decide +kernel) (by decide +kernel) (by decide +kernel)⟩

/-- R288: RELEASE makes the page ABSENT with W kept. -/
theorem test_dirRelease :
    (after (.dirRelease 0) (directing 0x40_0019 (directive 6 id) [])).body.mem.num 0x3008 8 = 8 := by decide +kernel

theorem witness_ProtectionChanges :
    let staged := fun (l : List (Nat × Nat)) (r : List Nat) =>
      State.reset.withBody { State.reset.body with dev.pg := { State.reset.body.dev.pg with staged := l, heldRegs := r, bumping := true } }
    let overflow := csrs [(oPgStat, 2 ^ 18)] State.reset
    mayWrite pf oPgStageData = true ∧ bitsOf 0x0F 0 3 ≠ 3 ∧ bitsOf 0x03 0 3 = 3 ∧ bitOf 0x10 4 = true ∧
    (List.replicate 256 (0, 0)).length = 256 ∧ isProtection (oSqTile 0) = true ∧ mayWrite pf (oSqTile 0) = true ∧
    (regSpec (oSqTile 0)).isSome = true ∧
    ((regSpec (oSqTile 0)).map fun r => encodingOk (oSqTile 0) (r.apply (State.reset.body.csr (oSqTile 0)) 8)) = some true ∧
    mayWrite pf oPgCtl = true ∧ State.reset.body.flag oPgStat 18 = false ∧ overflow.body.flag oPgStat 18 = true ∧
    oldInflight (staged [(0x3000, 9)] [oSqTile 0]).body = false ∧ stagedMoves (staged [(0x3000, 9)] [oSqTile 0]).body = false ∧
    State.reset.body.dev.pg.bumping = false ∧ mayWrite pf (oPgPoolBase 1) = true ∧ mayWrite pf (oPgPoolSize 1) = true ∧
    State.reset.body.field (oPgPoolSize 1) 24 24 = State.reset.body.field (oPgPoolSize 1) 0 24 ∧
    (csrs [(oPgPoolSize 1, 5)] State.reset).body.field (oPgPoolSize 1) 24 24 ≠ 5 := by decide +kernel

/-- R294: a bump writes what is staged and puts held registers in effect. -/
theorem test_protBump :
    let s := after (.protRegWrite pf (oSqTile 0) 8) State.reset
    let t := after .protBumpApply (after (.bump pf) s)
    s.body.eff (oSqTile 0) = State.reset.body.eff (oSqTile 0) ∧ t.body.eff (oSqTile 0) = 8 ∧ t.body.field oPgEpoch 0 32 = 1 := by
  decide +kernel

-- The time base.

/-- Reset with another time base and register words. -/
def clock (l : List (Nat × Nat)) (f : TimeBase → TimeBase) : State := let s := csrs l State.reset; { s with time := f s.time }

/-- A PTP master. -/
def master : PtpMaster := { prio1 := 128, cls := 6, acc := 0x20, var := 0, prio2 := 128, gm := 5, steps := 0 }

theorem witness_TimeBaseCommands :
    let ptp := clock [(oFb 8 0x10, 2)] fun t => { t with cfg := 0x006411 }
    let heard := clock [(oFb 7 0x10, 2)] fun t =>
      { t with cfg := 0x006412, parent := 7, hops := 1, mode := .holdover, heard := [(7, { root := 1, hops := 0, serial := 1 })] }
    let root := clock [(oFb 7 0x10, 2)] fun t => { t with cfg := 0x00641A, hops := 0 }
    mayWrite pf oTbSet = true ∧ State.reset.time.mode = .init ∧ State.reset.time.source = 0 ∧ State.reset.time.time < 1 ∧
    mayWrite pf oTbCfg = true ∧ encodingOk oTbCfg 0x006432 = true ∧ encodingOk oTbCfg 0x006433 = false ∧
    mayWrite .tap oTbCfg = false ∧ bitOf ptp.time.cfg.toNat 4 = true ∧ ptp.body.carries 8 = true ∧ ptp.time.source = 1 ∧
    bitsOf ptp.time.cfg.toNat 16 8 = 0 ∧ ptp.time.mode = .init ∧ ptp.time.time < 1 ∧ ¬ ptp.time.time < 0 ∧
    (ptp.time.ptp.announce 8 5 master).best = some (8, 5) ∧ ptp.time.ptp.best ≠ some (8, 5) ∧
    State.reset.body.timeLink 7 = false ∧ heard.body.timeLink 7 = true ∧ heard.time.source = 2 ∧ heard.time.isRoot = false ∧
    root.body.timeLink 7 = true ∧ root.time.isRoot = true ∧ heard.time.parent ≠ 0xF ∧
    (∀ h ∈ heard.time.heard, heard.body.timeLink h.1 = true) ∧
    heard.body.timeLink heard.time.parent.toNat = true := by decide +kernel

/-- Port 8 with PTP, sender 5 its master. -/
def mastered : State :=
  after (.ptpMessage 8 0 (.announce 5 master)) (clock [(oFb 8 0x10, 2)] fun t => { t with cfg := 0x006411 })

/-- R309: the first time of the master steps TB_TIME, and TRACKING begins; another sender's says nothing. -/
theorem test_ptp_steps :
    let t := after (.ptpMessage 8 0 (.sync 5 1 false 1000)) mastered
    t.time.time = 1000 ∧ t.time.mode = .tracking ∧
    (after (.ptpMessage 8 0 (.sync 6 1 false 1000)) mastered).time = mastered.time := by decide +kernel

/-- R309: of two masters the one with the lower priority is taken. -/
theorem test_ptp_best :
    (after (.ptpMessage 8 0 (.announce 6 { master with prio1 := 127, gm := 6 })) mastered).time.ptp.best = some (8, 6) := by decide +kernel

/-- R310: the neighbour with the lowest root is the parent, one hop further than it. -/
theorem test_time_parent :
    let s := clock [(oFb 7 0x10, 2), (oFb 2 0x10, 2)] fun t => { t with cfg := 0x006412 }
    let t := after (.time 2 50 3 5 9) (after (.time 7 50 1 6 9) s)
    t.time.parent = 2 ∧ t.time.hops = 4 := by decide +kernel

-- Links, transport and router.

/-- Reset with one port in a link state, its block enabled, and other fields of the port as `f` leaves them. -/
def linked (p st : Nat) (l : List (Nat × Nat)) (f : Port → Port) : State :=
  let s := csrs ((oFb p 0, 0xFF09) :: (oFb p 0x10, st + 0xFF00) :: l) State.reset
  s.withBody (s.body.modPort p f)

theorem witness_LinkBringUp :
    let hello := linked 7 1 [] fun q => { q with locked := true }
    mayWrite pf (oFb 9 0) = true ∧ State.reset.body.flag (oFb 9 0) 0 = false ∧ (linked 9 1 [] id).body.flag (oFb 9 0) 0 = true ∧
    (linked 9 0 [] id).body.training 9 = true ∧ (linked 9 2 [] id).body.training 9 = false ∧
    trainedLanes 9 ((linked 9 0 [] id).body.port 9) 0x0F = some 0x0F ∧ trainedLanes 9 ((linked 9 0 [] id).body.port 9) 0x07 = none ∧
    trainedLanes 7 ((linked 7 0 [] id).body.port 7) 0x03 = some 3 ∧ trainedLanes 7 ((linked 7 0 [] id).body.port 7) 0x11 = none ∧
    (linked 7 1 [] id).body.training 7 = true ∧ hello.body.greeting 7 = true ∧ (linked 7 1 [] id).body.greeting 7 = false ∧
    (1 : Word64) ≠ hello.fuse.serial ∧ (0#16).toNat = hello.body.neighbour 7 ∧ (1#16).toNat ≠ hello.body.neighbour 7 ∧
    (hello.body.port 7).held = [] ∧ (hello.body.port 7).want = .none_ ∧ (hello.body.port 7).bad = 0 ∧
    (hello.body.port 7).again = none ∧ (hello.body.port 7).locked = true ∧ (hello.body.port 7).modeSw = false ∧
    (linked 9 4 [] id).body.linkState 9 = 4 ∧ (linked 9 3 [] id).body.linkState 9 = 3 := by decide +kernel

/-- R329, R323: training at two lanes, then PCS lock, then a good HELLO: the link is UP. -/
theorem test_bring_up :
    let t := after (.linkTrained 7 0xFF) (linked 7 0 [] id)
    let u := after (.hello 7 1 0 false false 1 3) (after (.pcsLock 7) t)
    t.body.linkState 7 = 1 ∧ u.body.linkState 7 = 2 ∧ u.body.peer 7 = 1 ∧ (u.body.port 7).mac = 3 := by decide +kernel

theorem witness_LinkUpkeep :
    let up := linked 7 2 [(oFb 7 0x18, 9)] id
    let asks := linked 7 2 [(oFb 7 0x18, 9)] fun q => { q with req := .width }
    let going := fun k : BitVec 32 => linked 7 3 [] fun q => { q with goMask := 0x0F, goK := some k }
    let bad := linked 7 2 [] fun q => { q with req := .width, laneMask := 0x55 }
    up.body.linkState 7 = 2 ∧ (linked 7 3 [] id).body.linkState 7 ≠ 2 ∧ up.body.carries 7 = true ∧
    up.body.flag oMpStat 10 = false ∧ up.body.field oMpEpoch 0 32 = 0 ∧ (1#32).toNat ≠ up.body.field oMpEpoch 0 32 ∧
    (0#64).toNat = up.body.csr (oMpDigest 0) ∧ up.body.direct 7 = true ∧ armedAt up.body (detOf 9 7) = false ∧
    mayWrite pf (oFb 7 8) = true ∧ (up.body.port 7).req = .none_ ∧ (asks.body.port 7).req = .width ∧
    up.fuse.serial.toNat < up.body.peer 7 ∧ (linked 7 2 [] id).body.peer 7 ≤ up.fuse.serial.toNat ∧
    pickLanes ((asks.body.port 7).good &&& 0x0F) = some 0x0F ∧ pickLanes ((bad.body.port 7).good &&& 0xFF) = none ∧
    goDue (going 0).env 0 = true ∧ goDue (going 5).env 5 = false ∧ ((going 0).body.port 7).switched = false ∧
    (linked 7 3 [] fun q => { q with switched := true }).body.relocking 7 = true ∧
    ((going 0).body.port 7).req ≠ .retrain ∧ up.body.flag (oFb 7 0) 0 = true ∧ (up.body.port 7).again = none := by decide +kernel

/-- R326, R327: the end with the lower serial orders the switch 20 microseconds on. -/
theorem test_widthAck :
    let t := after (.widthAck 7 0x0F) (linked 7 2 [(oFb 7 0x18, 9)] fun q => { q with req := .width })
    t.body.linkState 7 = 3 ∧ (t.body.port 7).goMask = 0x0F ∧ (t.body.port 7).goK = some 20000 := by decide +kernel

/-- A frame with its checksum in place. -/
def sealed (f : Frame) : Frame := { f with ecrc := BitVec.ofNat 32 f.crc }
/-- A PUT frame of 32 header bytes and no data. -/
def putFrame : Frame := sealed { frame with payload := 2 :: List.replicate 31 0 }
/-- Port 7 UP, with what a neighbour's flow has come to. -/
def flowing (l : List (Nat × Nat)) (f : Flow → Flow) : State :=
  let s := linked 7 2 ((oRtr 0x18, 0) :: l) id
  s.withBody (s.body.modFlow (flowKey 1 0) fun x => f { x with inc := some 0 })
/-- A DATA frame of this device that is not yet acknowledged. -/
def tx (aresp : Bool) : TxFrame :=
  { f := { frame with seq := 4 }, owners := [], frees := none, held := none, acked := aresp, aresp := aresp, rto := 100, retx := 0, fast := false }

theorem witness_TransportAndRouter_link :
    let llr := fun k => linked 7 2 [(oFb 7 0x10, 0xFF0A)] fun q => { q with replay := [(1, frame, k)] }
    let held := linked 7 2 [] fun q => { q with queue := [frame] }
    (llr 0).body.llr 7 = true ∧ (llr 0).body.linkState 7 = 2 ∧ ((llr 0).body.port 7).queue = [] ∧
    ((((llr 6).body.port 7).replay.filter fun r => decide (0 ≤ serialDiff r.1.toNat (1#16).toNat 16)).map fun r => r.2.2) = [6] ∧
    ((((llr 7).body.port 7).replay.filter fun r => decide (0 ≤ serialDiff r.1.toNat (1#16).toNat 16)).map fun r => r.2.2) = [7] ∧
    ((llr 6).body.port 7).replay ≠ [] ∧ held.body.linkState 7 = 2 ∧ (held.body.port 7).queue ≠ [] := by decide +kernel

theorem witness_TransportAndRouter_frames :
    let old := sealed { putFrame with seq := 0xFFFF_FFFF }
    let ack := sealed { frame with typ := 2, ackv := true, ackseq := 5 }
    let aresp := sealed { frame with typ := 3, seq := 4 }
    (flowing [] id).takesFrame 7 putFrame = true ∧ putFrame.isMgmt = false ∧ putFrame.payload.length = 32 ∧ putFrame.opc = 2 ∧
    putFrame.seq.toNat = ((flowing [] id).body.flow (flowKey 1 0)).expect ∧ (flowing [] id).body.dev.fab.deferred = [] ∧
    (flowing [] id).takesFrame 7 old = true ∧ serialDiff old.seq.toNat 0 32 < 0 ∧ old.atom = false ∧
    (flowing [] fun x => { x with unacked := [tx false] }).takesFrame 7 ack = true ∧
    0 ≤ serialDiff ack.ackseq.toNat 0 32 ∧ serialDiff (tx false).f.seq.toNat ack.ackseq.toNat 32 < 0 ∧ (tx false).aresp = false ∧
    (flowing [] fun x => { x with unacked := [tx true] }).takesFrame 7 aresp = true ∧ (tx true).acked = true ∧
    (tx true).f.seq = aresp.seq ∧ (tx true).held = none ∧ (flowing [] id).linkTakes 7 { frame with dst := 5 } = true ∧
    (5#16).toNat ≠ (flowing [] id).body.coord ∧ (flowing [] fun x => { x with ackDue := true }).body.flow (flowKey 1 0) ≠ Flow.initial := by
  decide +kernel

theorem witness_TransportAndRouter_router :
    let open_ := csrs [(oFb 9 0x10, 2), (oFb 9 0x80, 1), (oFb 9 0x88, 2)] State.reset
    let rule := open_.withBody { open_.body with dev.eff := open_.body.dev.eff.set (oFb 9 0x178) 0x7_0001 }
    mayWrite pf (oRtr 0x38) = true ∧ mayWrite pf (oRtr 0x40) = true ∧ mayWrite pf (oRtr 0x48) = true ∧
    mayWrite pf (oRtr 0) = true ∧ mayWrite pf (oRtr 8) = true ∧ mayWrite pf (oRtr 0x20) = true ∧
    ((List.range 4).all fun tc => State.reset.body.flow (flowKey 0xFFFF tc) == Flow.initial) = true ∧
    open_.body.carries 9 = true ∧ (0x1_0000_0000_0000_0002#128).toNat = open_.body.csr (oFb 9 0x80) * 2 ^ 64 + open_.body.csr (oFb 9 0x88) ∧
    rxRule open_.body 9 7 = none ∧ rxRule rule.body 9 7 = some 15 ∧ armedAt open_.body (detOf 9 9) = false ∧
    frame.phy = PhyIn.clean ∧ ((List.range 8).all fun i => (open_.body.port i).queue.isEmpty) = true ∧ rule.body.flag (oDg 0x30) 15 = false := by decide +kernel

/-- R339: a frame that is next in its flow moves the expected sequence on. -/
theorem test_data_next : ((after (.data 7 putFrame) (flowing [] id)).body.flow (flowKey 1 0)).expect = 1 ∧
    (after (.data 7 putFrame) (flowing [] id)).body.dev.fab.inbox = [putFrame] := by decide +kernel

/-- R334: a frame whose end-to-end checksum is wrong is not taken. -/
theorem test_data_ecrc :
    (after (.data 7 { putFrame with ecrc := putFrame.ecrc + 1 }) (flowing [] id)).body.dev.fab.inbox = [] := by decide +kernel

/-- R321, R338: a frame with a bad FCS is counted and dropped; R350: so is a Horven frame at an open port. -/
theorem test_data_dropped :
    let bad := { putFrame with phy := { fcsOk := false, corr := 0, uncorr := 0 } }
    (flowing [] id).body.carries 7 = true ∧ (flowing [] id).body.llr 7 = false ∧ armedAt (flowing [] id).body (detOf 9 7) = false ∧
    (after (.data 7 bad) (flowing [] id)).body.dev.fab.inbox = [] ∧
    (after (.data 9 putFrame) (csrs [(oFb 9 0x10, 2)] State.reset)).body.field (oFb 9 0x40) 48 16 = 1 := by decide +kernel

-- The copy engine and what its operations meet.

/-- Site 0 with its banks the copy engine's and tile 0 in squad 0; a ring of two devices along D, of which this one is rank
0; both ranks are members. -/
def cpAt (l : List (Nat × Nat)) (f : CpSt → CpSt) : State :=
  let s := csrs ((oRtr 8, 0x1000) :: l) (at0 fun t => let t := owned 5 t; { t with cp := f t.cp })
  s.withBody { s.body with dev.eff := (s.body.dev.eff.set (oSqTile 0) 8).set (oTr 0x20) 3 }
/-- The descriptor of a copy of FP32 elements from or to 0x1000 here and 0x2000 at RDEV (R360). -/
def copyDesc (op rdev nelem rest : Nat) : Nat :=
  0x11 + op * 2 ^ 8 + rest + 0x1000 * 2 ^ 128 + 0x2000 * 2 ^ 192 + rdev * 2 ^ 256 + nelem * 2 ^ 288
/-- An operation with that descriptor, tag 7. -/
def copyOp (desc : Nat) (f : CpOp → CpOp) : CpOp := f (CpOp.start 7 (issued 0x2C 0 0 0 0x40 0) desc 0 0 none)
/-- A site with one operation. -/
def copying (o : CpOp) : State := cpAt [] fun x => { x with ops := [o] }

theorem witness_CopyEngine_launch :
    let q := fun rest => issued 0x2C 0 0 rest 0x40 0
    let s := fun desc rest => withDescs [(0x40, desc)] (cpAt [] fun x => { x with eng.q := [q rest] })
    ((s 0 1).core 0).issue = none ∧ ((s 0 1).core 0).wait = none ∧ ((s 0 1).body.site 0).cp.eng.head = some (q 1) ∧
    ((s 0 1).body.site 0).cp.ops.length < 64 ∧ (s 0 1).body.retired = false ∧ cpEncodingOk (q 1) = false ∧
    cpEncodingOk (q 0xF0) = true ∧ (q 0xF0).cpColl = false ∧ cpDescOk ((s 0 0xF0).body.site 0) (q 0xF0) = true ∧
    armedAt (s 0 0).body (detOf 1 0) = false ∧ armedAt (s 0 0).body (detOf 5 0) = false ∧
    wakingIn ((s 0 0).body.site 0) ((q 0).a.toNat, 64) = false ∧
    bitOf ((((s (2 ^ 11 + 2 ^ 32) 0).body.site 0).cp.eng.cap.getD [descAt (s (2 ^ 11 + 2 ^ 32) 0).body.mem 0 0x40]).headD 0) 11 = true ∧
    ((s 0 0).body.site 0).cp.eng.q.all (fun q => !statusWaits ((s 0 0).body.site 0) q) = true ∧
    kickDue (s 0 0).env.now 1 = false ∧ kickDue (s 0 0).env.now 0 = true ∧ kickLate (s 0 0).env.now 0 = false ∧
    mayWrite pf (oTl 407 0x4000) = true := by decide +kernel

theorem witness_CopyEngine_copies :
    let at_ := fun (op rdev n rest : Nat) => copying (copyOp (copyDesc op rdev n rest) id)
    let o := fun (op rdev n rest : Nat) => copyOp (copyDesc op rdev n rest) id
    let done := copying (copyOp 0 fun o => { o with status := some cpBank })
    let sends := cpAt [(oFb 9 0x10, 2)] fun x => { x with ops := [o 4 0 1 (2 ^ 272)] }
    pendingOp (at_ 1 0 4 0).body 0 7 1 false = some (o 1 0 4 0) ∧ (o 1 0 4 0).isLocal (at_ 1 0 4 0).body = true ∧
    rctxOk (at_ 1 0 4 0).body 0 0 = true ∧ digWaits (at_ 1 0 4 0).body [(0, 0, 0, 4)] = false ∧ (o 1 0 4 0).orphan = false ∧
    sideRead (at_ 1 0 4 0).env ((o 1 0 4 0).here 0) 0x1000 16 (at_ 1 0 4 0).body =
      (.ok (List.replicate 16 0) cpOk, (at_ 1 0 4 0).body) ∧
    (sideWrite (at_ 1 0 4 0).env ((o 1 0 4 0).there (at_ 1 0 4 0).body 0) 0x2000 (List.replicate 16 0) (at_ 1 0 4 0).body).1 =
      .ok [] cpOk ∧
    pendingOp (at_ 1 1 4 0).body 0 7 1 false = some (o 1 1 4 0) ∧ (o 1 1 4 0).isLocal (at_ 1 1 4 0).body = false ∧
    pendingOp (at_ 2 0 4 0).body 0 7 2 false = some (o 2 0 4 0) ∧ (o 2 0 4 0).isLocal (at_ 2 0 4 0).body = true ∧
    sideRead (at_ 2 0 4 0).env ((o 2 0 4 0).there (at_ 2 0 4 0).body 0) 0x2000 16 (at_ 2 0 4 0).body =
      (.ok (List.replicate 16 0) cpOk, (at_ 2 0 4 0).body) ∧
    (sideWrite (at_ 2 0 4 0).env ((o 2 0 4 0).here 0) 0x1000 (List.replicate 16 0) (at_ 2 0 4 0).body).1 = .ok [] cpOk ∧
    pendingOp (at_ 2 1 4 0).body 0 7 2 false = some (o 2 1 4 0) ∧ (o 2 1 4 0).comb = false ∧
    pendingOp (at_ 3 1 1 (7 * 2 ^ 24)).body 0 7 3 false = some (o 3 1 1 (7 * 2 ^ 24)) ∧ (o 3 1 1 (7 * 2 ^ 24)).atom64 = true ∧
    pendingOp (at_ 3 1 1 0).body 0 7 3 false = some (o 3 1 1 0) ∧ (o 3 1 1 0).atom64 = false ∧
    sideRead (at_ 3 1 1 0).env ((o 3 1 1 0).here 0) 0x1000 4 (at_ 3 1 1 0).body =
      (.ok (List.replicate 4 0) cpOk, (at_ 3 1 1 0).body) ∧
    pendingOp sends.body 0 7 4 false = some (o 4 0 1 (2 ^ 272)) ∧ sends.body.carries (8 + (o 4 0 1 (2 ^ 272)).rtile % 2) = true ∧
    sideRead sends.env ((o 4 0 1 (2 ^ 272)).here 0) 0x1000 1 sends.body = (.ok [0] cpOk, sends.body) ∧
    pendingOp (at_ 4 0 1 0).body 0 7 4 false = some (o 4 0 1 0) ∧ (at_ 4 0 1 0).body.carries 8 = false ∧
    (at_ 1 0 4 0).body.opOf 0 7 = some (o 1 0 4 0) ∧ (o 1 0 4 0).finished (at_ 1 0 4 0).body = none ∧
    (done.body.opOf 0 7).bind (fun o => o.finished done.body) = some cpBank ∧
    (done.body.opOf 0 7).map (fun o => (o.coll, o.orphan, statusWaits (done.body.site 0) o.entry)) = some (false, false, false) := by decide +kernel

/-- R363: a local put copies at once; R359: STATUS is the descriptor's last byte. -/
theorem test_put_local :
    let s := copying (copyOp (copyDesc 1 0 4 0) id)
    let s := s.withBody { s.body with mem := s.body.mem.setNum (siteBase 0 + 0x100C) 4 7 }
    (after (.put 0 7 []) s).body.mem.num (siteBase 0 + 0x200C) 4 = 7 ∧
    (after (.cpComplete 0 7 []) (copying (copyOp 0 fun o => { o with status := some cpBank }))).body.mem.num (siteBase 0 + 0x7F) 1 = 6 := by
  decide +kernel

/-- The descriptor of a collective of four FP32 elements, SRC 0x1000, DST 0x2000, RET 0x3000 (R377). -/
def collDesc (op rest : Nat) : Nat := 1 + op * 16 + rest + 0x1000 * 2 ^ 128 + 0x2000 * 2 ^ 192 + 0x3000 * 2 ^ 256 + 4 * 2 ^ 320
/-- An operation with that descriptor, tag 7. -/
def collOf (desc : Nat) (f : CpOp → CpOp) : CpOp := f (CpOp.start 7 (issued 0x2C 1 0 0 0x40 0) desc 0 0 none)

theorem witness_Collectives :
    let plain := fun op => collOf (collDesc op 0) id
    let when_ := fun op => collOf (collDesc op (2 ^ 28)) id
    let ready := fun op => collOf (collDesc op 0) fun o => { o with issued := true, landed := [(1, 8)] }
    let sent := fun op (p : Nat) => collOf (collDesc op (2 ^ 28)) fun o => { o with issued := true, policy := p }
    let b := fun o => (copying o).body
    collOp (b (plain 1)) 0 7 1 = some (plain 1) ∧ collOp (b (plain 3)) 0 7 3 = some (plain 3) ∧
    sideRead (copying (plain 1)).env ((plain 1).here 0) 0x1000 16 (b (plain 1)) = (.ok (List.replicate 16 0) cpOk, b (plain 1)) ∧
    (plain 1).orphan = false ∧ (plain 1).leftOut (b (plain 1)) = false ∧
    (collOf (collDesc 3 (2 ^ 28)) fun o => { o with closed := true, lineup := 2 }).leftOut (b (plain 1)) = true ∧
    (ready 3).sourceDead (b (ready 3)) = false ∧ digWaits (b (plain 2)) [((plain 2).tid, 0, 0, 2)] = false ∧
    (plain 1).peers (b (plain 1)) = [1] ∧ (plain 1).landedFrom 1 < packedBytes 1 ((plain 1).seg (b (plain 1))) ∧
    (when_ 3).when_ = true ∧ (when_ 3).closed = false ∧ collOp (b (ready 1)) 0 7 1 = some (ready 1) ∧
    (ready 1).ready (b (ready 1)) = true ∧ (ready 3).ready (b (ready 3)) = true ∧ (ready 1).mustCarry (b (ready 1)) = false ∧
    (reduceOwn (copying (ready 1)).env 0 (ready 1) (b (ready 1))).1 = some cpOk ∧
    (reduceOwn (copying (ready 3)).env 0 (ready 3) (b (ready 3))).1 = some cpOk ∧
    collOp (b (plain 2)) 0 7 2 = some (plain 2) ∧ collOp (b (plain 4)) 0 7 4 = some (plain 4) ∧
    (plain 4).root = rankOf (b (plain 4)) (plain 4).ax ∧
    (sideWrite (copying (plain 2)).env ((plain 2).here 0) ((plain 2).elemAddr (plain 2).dst 0) (List.replicate 8 0) (b (plain 2))).1 =
      .ok [] cpOk ∧
    (collOf (collDesc 4 (2 ^ 384)) id).root = 1 ∧ (sent 3 0).rootPos = rankOf (b (sent 3 0)) (sent 3 0).ax ∧
    (sent 3 0x10).rootPos ≠ rankOf (b (sent 3 0x10)) (sent 3 0x10).ax ∧ (sent 3 0).reduces = true ∧ (sent 3 0).await_ = 0 ∧
    (sent 3 0).selfArrived = false ∧ (b (sent 3 0)).flag (oTr 0x38) 8 = false ∧ (b (sent 3 0)).dev.tr.lineups = [] ∧
    ringMembers (sent 3 0) (b (sent 3 0)) = 3 ∧ kickDue (copying (sent 3 1)).env.now (sent 3 1).whistle = true ∧
    (sent 3 1).straggler = 1 ∧ (copyToRet (copying (plain 1)).env 0 (plain 1) (b (plain 1))).1 = some cpOk ∧
    mayWrite pf (oTr 0x38) = true := by decide +kernel

/-- The lineup log lies in a page, its slot free or not. -/
theorem witness_Collectives_log :
    let s := fun v => csrs [(oTr 0x50, 0x20_0000 + 2 ^ 60)] (directing 0x40_0009 none [])
      |>.withBody { (directing 0x40_0009 none []).body with
        dev := { (csrs [(oTr 0x50, 0x20_0000 + 2 ^ 60)] (directing 0x40_0009 none [])).body.dev with tr.lineups := [5] },
        mem := (directing 0x40_0009 none []).body.mem.write 0x40_0000 v }
    let free := List.replicate 32 (0 : Byte)
    let full := List.replicate 31 (0 : Byte) ++ [0x80]
    vaRead (s free).env (trSquad (s free).body) whoLog (logSlot (s free).body) 32 (s free).body = (.ok free, (s free).body) ∧
    vaRead (s full).env (trSquad (s full).body) whoLog (logSlot (s full).body) 32 (s full).body = (.ok full, (s full).body) ∧
    bitOf (ofBytes full) 255 = true ∧ bitOf (ofBytes free) 255 = false ∧ (s free).body.dev.tr.lineups = [5] ∧
    (vaWrite (s free).env (trSquad (s free).body) whoLog (logSlot (s free).body) (leBytes 5 32) (s free).body).1 = .ok [] := by decide +kernel

/-- R380: the own segment becomes the sum of both ranks' elements, 1.0 + 2.0 = 3.0. -/
theorem test_reduceScatter :
    let s := copying (collOf (collDesc 1 0) fun o => { o with issued := true, landed := [(1, 8)] })
    let m := s.body.mem.setNum (siteBase 0 + 0x1004) 4 0x3F800000
    let s := s.withBody { s.body with mem := m.setNum (siteBase 0 + 0x200C) 4 0x40000000 }
    (after (.reduceScatter 0 7 []) s).body.mem.num (siteBase 0 + 0x2004) 4 = 0x40400000 := by decide +kernel

/-- The header of a frame for tile 0 of this device, from device 1. -/
def opHead (opc : Nat) (f : OpHdr → OpHdr) : OpHdr := f { OpHdr.ofNat 0 with opc := opc, orig := 1, addr := 0x1000, tag := 7 }
/-- Its frame. -/
def opFrame (opc : Nat) (data : List Byte) (f : OpHdr → OpHdr) : Frame :=
  sealed { frame with payload := (opHead opc f).payload data, atom := opc = 4 || opc = 5 }
/-- An atomic's frame with operation `aop`. -/
def atomFrame (aop : Nat) (data : List Byte) (f : OpHdr → OpHdr) : Frame := opFrame 4 data fun h => f { h with ext := aop }
/-- A device with one frame in its inbox and a get under way at site 0. -/
def inbox (f : Frame) : State :=
  let o := copyOp (copyDesc 2 1 4 0) fun o => { o with issued := true }
  let s := cpAt [] fun x => { x with ops := [o] }
  s.withBody { s.body with dev.fab := { s.body.dev.fab with inbox := [f] } }

/-- The same body with site 0's banks open to the mesh. -/
def owned6 (b : Body) : Body := b.modSite 0 (owned 6)

theorem witness_FabricRequests :
    let data := [1, 2, 3, 4]
    let put := opFrame 1 data id
    let newer := opFrame 1 data fun h => { h with genchk := true, gen := 1 }
    let get := opFrame 2 [] fun h => { h with orig := 1, fmt := 1, count := 4 }
    let back := opFrame 3 data fun h => { h with orig := 0 }
    let atom := opFrame 4 (List.replicate 20 0) fun h => { h with addr := 0x20_0000 }
    let notice := opFrame 6 [] fun h => { h with addr := noticeAddr, count := 2 ^ 12 }
    let b : Body := { (inbox put).body with dev.fab.inbox := [] }
    let page := onePage 1
    let coll := copying (collOf (collDesc 3 (2 ^ 28)) id)
    armedClass b 6 = false ∧ digWaits b [(3, 0, 0, put.body.length * 8 / fmtWidth (headOf put).fmt)] = false ∧
    (inbox put).body.dev.fab.inbox = [put] ∧ put.opc = 1 ∧ (headOf put).genchk = false ∧ (headOf put).addr < 2 ^ 21 ∧
    rctxOk b (headOf put).rtile (headOf put).rctx = true ∧ b.holdOf 0 = false ∧ donorWaits b 0 0 = false ∧
    put.body = data ∧ (b.site 0).servesAll 6 [(0x1000, 4)] = false ∧
    ((at0 fun t => owned 6 t).body.site 0).servesAll 6 [(0x1000, 4)] = true ∧
    wakingIn ((at0 fun t => owned 6 t).body.site 0) (0x1000, 4) = false ∧ newer.opc = 1 ∧ (headOf newer).genchk = true ∧
    0 < genOf b (headOf newer) ∧ get.opc = 2 ∧ (headOf get).rtile ≠ collTile ∧ (headOf get).hop = false ∧
    (sideRead (inbox get).env (sideOf (owned6 b) 0 0 whoInbox none) 0x1000 (packedBytes 1 4) (owned6 b)) =
      (.ok (List.replicate 16 0) cpOk, owned6 b) ∧
    back.opc = 3 ∧ (headOf back).orig = b.coord ∧ b.dev.fab.comb.find? (entryOf (headOf back)) = none ∧
    ((b.findTag (headOf back).tag).map fun p => (p.1, p.2.coll, p.2.got)) = some (0, false, []) ∧
    ((b.findTag 7).map fun p => (landBytes (inbox back).env 0 p.2 (headOf back) data b).1) = some (some cpOk) ∧
    atom.opc = 4 ∧ (sidePlace (inbox atom).env (sideOf (page b) 0 0 whoInbox none) 0x20_0000 (atomSpan atom) (page b)).1 =
      (some 0x40_0000, .ok [] cpOk) ∧
    notice.opc = 6 ∧ (headOf notice).gen = b.gen ∧ (headOf notice).addr = noticeAddr ∧
    ((matchingColl coll.body 0 (headOf notice)).map fun p => p.1) = some 0 := by decide +kernel

theorem witness_FabricRequests_answers :
    let status := opFrame 10 [] fun h => { h with orig := 0, count := 0x10 }
    let notready := opFrame 7 [] id
    let ready := opFrame 8 [] id
    let ret := opFrame 9 [1, 2, 3, 4] fun h => { h with orig := 0, addr := 0x2000 }
    let held := (inbox ready).withBody ((inbox ready).body.modFlow (flowKey 1 0) fun x =>
      { x with unacked := [{ tx false with held := some 0 }] })
    let hop := opFrame 4 (List.replicate 20 0) fun h => { h with hop := true, final := 5, comb := true }
    let entry : CombEntry := { open_ := hop, tick := 0, window := 0, joined := [], locals := [], count := 1, sums := [], pieces := [],
                               ue := false }
    let b : Body := { (inbox status).body with dev.fab.inbox := [] }
    let o := copyOp (copyDesc 2 1 4 0) id
    status.opc = 10 ∧ (headOf status).orig = b.coord ∧ (b.findTag (headOf status).tag).isSome = true ∧ notready.opc = 7 ∧
    ready.opc = 8 ∧ ((held.body.flow (flowKey 1 0)).unacked.map fun x => x.held) = [some (headOf ready).count] ∧
    ret.opc = 9 ∧ (headOf ret).orig = b.coord ∧ (sideWrite (inbox ret).env (o.here 0) (o.laddr + (0x2000 - o.raddr)) [1, 2, 3, 4] b).1 =
      .ok [] cpOk ∧
    (headOf hop).hop = true ∧ (headOf hop).final ≠ b.coord ∧
    (joinAtom hop [hop] [] { b with dev.fab.comb := [entry] }).isSome = true ∧ joinAtom hop [hop] [] b = none ∧
    (openAtom hop [hop] (contributions hop) (firstSums hop) b).isSome = true ∧
    0 < genOf b (headOf (opFrame 6 [] fun h => { h with gen := 1 })) := by decide +kernel

/-- An atomic of device 1 at 4 MiB of HBM. -/
def atomic (aop : Nat) (data : List Byte) (l : List ExactSum) (f : AtomJob → AtomJob) : State :=
  let j : AtomJob := f { f := atomFrame aop data id, aop := aop, count := 1, pa := 0x40_0000, waited := false }
  State.reset.withBody { State.reset.body with dev.fab := { State.reset.body.dev.fab with atomQ := [j], sums := l } }

theorem witness_AtomicUnits :
    let j := (atomic 3 (leBytes 5 8) [] id).body.dev.fab.atomQ
    let b := State.reset.body
    let r := ExactSum.empty 0x40_0000 0
    let c : CombEntry := { open_ := opFrame 5 (List.replicate 48 0) id, tick := 0, window := 0, joined := [], locals := [], count := 1,
                           sums := [], pieces := [], ue := false }
    (j.map fun j => (j.aop, j.pa % 8, j.f.atom, j.f.src.toNat != b.coord)) = [(3, 0, true, true)] ∧ b.holdOf 0 = false ∧
    stackLost b (hbmPlace 0x40_0000).1 = false ∧ armedAt b (detOf 7 (hbmPlace 0x40_0000).1) = false ∧
    b.dev.poison.contains 0x40_0000 = false ∧
    ((atomic 0 (List.replicate 16 0 ++ leBytes 0x3F800000 4) [r] id).body.dev.fab.atomQ.map fun j => atomValues j.f) = [[0x3F800000]] ∧
    [r].find? (fun z => z.pa == 0x40_0000 && z.step == 0) = some r ∧ c.open_.opc = 5 ∧
    ((atomic 0 [] [] fun j => { j with waited := true }).body.dev.fab.atomQ.map fun j => j.waited) = [true] ∧ b.dev.fab.comb[0]? = none := by
  decide +kernel

/-- R368, R369: IADD64 stores the sum; FADD32 adds to what its register holds and stores the rounded sum. -/
theorem test_atomics :
    (after (.iadd64 []) (atomic 3 (leBytes (2 ^ 64 - 1) 8) [] id)).body.mem.num 0x40_0000 8 = 2 ^ 64 - 1 ∧
    (after .fadd32 (atomic 0 (List.replicate 16 0 ++ leBytes 0x3F800000 4) [(ExactSum.empty 0x40_0000 0).addBits 0x40000000] id)).body.mem.num
      0x40_0000 4 = 0x40400000 := by decide +kernel

-- The training runtime.

/-- Context 0 with one page of HBM at VA 2 MiB, the batch ring at its start and the update ring 4 KiB on, register words, an
update record under way, and bytes in the page. -/
def training (l : List (Nat × Nat)) (u : Option UpdRun) (m : List (Nat × Nat)) : State :=
  let s := directing 0x40_0009 none ([(oTr 0x88, 0x20_0000), (oTr 0xC0, 0x20_1000)] ++ l)
  s.withBody { s.body with dev.tr := { s.body.dev.tr with upd := u },
                           mem := m.foldl (fun m x => m.setNum (0x40_0000 + x.1) 4 x.2) s.body.mem }
/-- A record of SGD over one line of FP32 weights at page offset 0x2000, gradients at 0x3000 (R402). -/
def sgdRecord (op : Nat) (f : UpdRun → UpdRun) : UpdRun :=
  f { slot := 0, rcd := op + 0x10 + 0x20_2000 * 2 ^ 128 + 0x20_3000 * 2 ^ 192 + 16 * 2 ^ 448 + 0x3F800000 * 2 ^ 576 +
        0x3F800000 * 2 ^ 736 + 2 ^ 1023, key := 0, started := true, ran := false, status := 0 }

theorem witness_TrainingRuntime_batches :
    let run := fun m => training [(oMbCfg, 5 + 2 ^ 16), (oMbStat, 2 ^ 48 + 2 ^ 32)] none m
    let full := run [(4, 2 ^ 29)]
    let done := run [(4, 3 * 2 ^ 29)]
    mayWrite pf (oTr 0x98) = true ∧ State.reset.body.flag oMbStat 48 = false ∧ (run []).body.flag oMbStat 48 = true ∧
    (run []).body.retired = false ∧ (run []).body.field oMbStat 0 13 < (run []).body.field oMbCfg 0 13 ∧
    (run []).body.field oMbCfg 16 16 ≤ (run []).body.field oMbStat 32 16 ∧
    vaRead (run []).env (trSquad (run []).body) whoBatch (mbSlotVa (run []).body 0) 16 (run []).body =
      (.ok (List.replicate 16 0), (run []).body) ∧
    (vaWrite (run []).env (trSquad (run []).body) whoBatch (mbSlotVa (run []).body 0) (leBytes (mbSlotWord (run []).body 0) 16)
      (run []).body).1 = .ok [] ∧
    vaRead full.env (trSquad full.body) whoBatch (mbSlotVa full.body 64) 16 full.body = (.ok (leBytes (2 ^ 61) 16), full.body) ∧
    vaRead done.env (trSquad done.body) whoBatch (mbSlotVa done.body 64) 16 done.body =
      (.ok (leBytes (2 ^ 61 + 2 ^ 62) 16), done.body) ∧
    (vaWrite done.env (trSquad done.body) whoBatch (mbSlotVa done.body 64) (leBytes 0 16) done.body).1 = .ok [] := by decide +kernel

theorem witness_TrainingRuntime_updates :
    let r := sgdRecord 0 id
    let s := training [] (some r) []
    let timed := sgdRecord 0 fun u => { u with started := false, rcd := u.rcd + 2 ^ 8 + 2 ^ 32 }
    let idle := training [] none []
    let b := s.body
    (vaRead idle.env (trSquad idle.body) whoUpdate (updSlotVa idle.body (updHead idle.body)) 128 idle.body) =
      (.ok (List.replicate 128 0), idle.body) ∧
    mayWrite pf (oTr 0xC8) = true ∧ idle.body.flag oUpdStat 1 = false ∧ idle.body.retired = false ∧ b.dev.tr.upd ≠ none ∧
    timed.field 8 1 = 1 ∧ kickDue idle.env.now (timed.field 32 32) = false ∧ (sgdRecord 0 fun u => { u with started := false }).field 8 1 = 0 ∧
    r.op = 0 ∧ r.wfmt = 1 ∧ r.nelem = 16 ∧ updWaits r b = false ∧ digWaits b r.digRuns = false ∧ armedClass b 6 = false ∧
    ((List.range 12).all fun k => !armedAt b (detOf 7 k) && !stackLost b k) = true ∧ b.mem.wf = true ∧
    updReach b r.ctx (r.field 128 48) true = .at_ 0x40_2000 ∧ updReach b r.ctx (r.field 192 48) false = .at_ 0x40_3000 ∧
    b.dev.poison = [] ∧ (sgdRecord 10 id).op = 10 ∧ updWaits (sgdRecord 10 id) b = false ∧
    (vaWrite s.env (trSquad b) whoUpdate (updSlotVa b 0 + 120) (leBytes (putBits (putBits r.rcd 960 8 0) 1023 1 0 >>> 960) 8) b).1 =
      .ok [] ∧
    mayWrite pf (oTr 0x10) = true ∧ updIdle State.reset.body = true ∧ updIdle b = false ∧ mayWrite pf (oTr 8) = true ∧
    0 < serialDiff (bitsOf 1 0 16) State.reset.body.gen 16 ∧ ¬ 0 < serialDiff (bitsOf 0 0 16) State.reset.body.gen 16 := by
  decide +kernel

/-- R405: SGD with rate 1 takes a gradient of 1 from a weight of 3. -/
theorem test_sgd :
    (after .sgd (training [] (some (sgdRecord 0 id)) [(0x2004, 0x40400000), (0x3004, 0x3F800000)])).body.mem.num 0x40_2004 4 =
      0x40000000 := by decide +kernel

/-- R395: a micro-batch takes its credits and its slot. -/
theorem test_mbAdmit :
    let t := after .mbAdmit (training [(oMbCfg, 5 + 2 ^ 16), (oMbStat, 2 ^ 48 + 2 ^ 32)] none [])
    t.body.field oMbStat 0 13 = 1 ∧ t.body.field oMbStat 32 16 = 0 ∧ bitOf (t.body.mem.num 0x40_0000 16) 61 = true := by
  decide +kernel

-- Layer digests, injection and squads.

theorem witness_DigestsAndInjection_digests :
    let d : DigAcc := { live := true, step := 3, sum := 5, count := 1 }
    let s := fun (v : Nat) => training [(oDg 0x20, 0x20_0000)] none [(60, v)]
    let t := fun v => (s v).withBody { (s v).body with dev.tr := { (s v).body.dev.tr with
      digBuf := [7], dig := (s v).body.dev.tr.dig.set 63 { DigSlot.initial with cur := d } } }
    let rec_ := (t 0).body
    mayWrite pf (oDg 8) = true ∧ mayWrite (.host 0 1) (oDg 8) = false ∧ rec_.dev.tr.digBuf = [7] ∧
    (rec_.digSlot 63).cur.live = true ∧
    vaRead (t 0).env (trSquad rec_) whoDigest 0x20_0000 64 rec_ = (.ok (List.replicate 64 0), rec_) ∧
    (vaRead (t (2 ^ 31)).env (trSquad (t (2 ^ 31)).body) whoDigest 0x20_0000 64 (t (2 ^ 31)).body).1 =
      .ok (List.replicate 63 0 ++ [0x80]) ∧
    (vaWrite (t 0).env (trSquad rec_) whoDigest 0x20_0000 (leBytes 7 64) rec_).1 = .ok [] ∧
    bitsOf (rec_.csr (oDg 0x20)) 6 42 * 64 + 64 * (rec_.dev.tr.digHead % 2 ^ bitsOf (rec_.csr (oDg 0x20)) 60 4) = 0x20_0000 ∧
    digAffected 0 = [] ∧ digAffected (oDg 0x13F8) = [63] ∧ (regSpec (oDg 0x13F8)).isSome = true ∧ mayWrite pf (oDg 0x13F8) = true ∧
    (regSpec (oDg 0x13F0)).isSome = true ∧ digAffected (oDg 0x13F0) = [63] ∧
    ((regSpec (oDg 0x13F0)).map fun r => encodingOk (oDg 0x13F0) (r.apply (rec_.csr (oDg 0x13F0)) 0)) = some true := by decide +kernel

theorem witness_DigestsAndInjection_feed :
    let s := fun (pad : Nat) (l : List (Nat × Nat)) => training ([(oDg 8, 2), (oDg 0x38, 0x20_0000 + 12 * 2 ^ 59), (oDg 0x40, 128)] ++ l) none
      [(16, 64 * 2 ^ 8), (16, 2 ^ 24 * pad + 64 * 2 ^ 8)]
    let b := (s 0 [(oSq 0 0x18, 0)]).body
    let w := ofBytes (b.mem.bytes 0x40_0000 64)
    let open_ := b.modSite 0 (owned 5)
    b.flag (oDg 8) 1 = true ∧ capTail b ≠ capHead b ∧ capVa b (capTail b) = 0x20_0000 ∧
    vaRead (s 0 []).env (trSquad b) whoCapture (capVa b (capTail b)) 64 b = (.ok (b.mem.bytes 0x40_0000 64), b) ∧
    bitOf w 152 = false ∧ bitsOf w 136 16 = 64 ∧
    bitOf (ofBytes ((s 1 []).body.mem.bytes 0x40_0000 64)) 152 = true ∧
    vaRead (s 0 []).env (trSquad b) whoCapture (capVa b (capTail b + 64)) 64 b = (.ok (List.replicate 64 0), b) ∧
    b.flag (oSq 0 0) 61 = false ∧ b.holdOf 0 = false ∧ (open_.site 0).servesAll 5 [(0, 128)] = true ∧
    bitOf (b.mem.num (siteBase 0) 64) 511 = false ∧ wakingIn (b.site 0) (0, 128) = false ∧ b.dev.sq.rxWait = [] ∧
    armedAt b (detOf 1 0) = false ∧
    State.reset.body.flag (oDg 8) 1 = false := by decide +kernel

/-- Squad 1 of DEADLINE class called up on one tile, which belongs to squad 0. -/
def calling (st : Nat) (f : Site → Site) (owner : Nat) : State :=
  let s := csrs [(oSq 1 0, 2 ^ 63 + 2 ^ 62), (oSq 1 8, 2 ^ 17), (oSq 1 0x10, 0x40 * 2 ^ 18), (oSqStat 1, st)] (at0 f)
  s.withBody { s.body with dev.eff := s.body.dev.eff.set (oSqTile 0) owner }

theorem witness_SquadCommands :
    let yielded := fun t : Site => { t with yielded := true }
    let s := calling 1 yielded 8
    let called := calling 2 yielded 9
    let held := (calling 0 id 8).withBody { (calling 0 id 8).body with dev.csr := (calling 0 id 8).body.dev.csr.set (oSubst 0) (2 ^ 31) }
    let thru := csrs [(oSq 7 0, 2 ^ 63)] State.reset
    (regSpec (oSq 7 0)).isSome = true ∧ mayWrite pf (oSq 7 0) = true ∧ squadNamed State.reset.body 7 = false ∧
    ((regSpec (oSq 7 0)).map fun r => squadsOk State.reset.body 7 (r.apply (State.reset.body.csr (oSq 7 0)) (2 ^ 63)) &&
      encodingOk (oSq 7 0) (r.apply (State.reset.body.csr (oSq 7 0)) (2 ^ 63))) = some true ∧
    mayCommand s.body .tap 1 = false ∧ mayCommand s.body pf 1 = true ∧ s.body.callState 1 = 1 ∧
    (calling 0 id 8).body.squadValid 1 = true ∧ (calling 0 id 8).body.squadDeadline 1 = true ∧
    callTiles (calling 0 id 8).body 1 = [0] ∧ (calling 0 id 8).body.squadOf 0 = some (callDonor (calling 0 id 8).body 1) ∧
    (calling 0 id 10).body.squadOf 0 ≠ some (callDonor (calling 0 id 10).body 1) ∧ (calling 0 id 8).body.holdOf 0 = false ∧ held.body.holdOf 0 = true ∧ held.body.callState 1 = 0 ∧
    callSites s.body 1 = [0] ∧ (s.body.site 0).yielded = true ∧ (s.body.site 0).core.stopped = true ∧
    (sqBump (fun _ => false) ((callTiles s.body 1).map fun n => (n, 9)) s.body).isSome = true ∧
    mayWrite pf (oSq 1 0x30) = true ∧ mayWrite .tap (oSq 1 0x30) = false ∧ called.body.callState 1 = 2 ∧
    returnReady called.body 1 = true ∧ returnReady s.body 1 = false ∧ Machine.called called.body 1 = true ∧
    (sqBump (toRange called.body 1) ((callTiles called.body 1).map fun n => (n, 8 + callDonor called.body 1)) called.body).isSome = true ∧
    (called.withBody { called.body with dev.pg := { called.body.dev.pg with bumping := true } }).body.dev.pg.bumping = true ∧
    thru.body.squadValid 7 = true ∧ thru.body.squadDeadline 7 = false := by decide +kernel

/-- R475: a range tile of another squad than the donor is a bad range. -/
theorem test_callup_range : (after (.callup pf 1) (calling 0 id 10)).body.flag (oSqStat 1) 7 = true ∧
    (after (.callup pf 1) (calling 0 id 8)).body.callState 1 = 1 := by decide +kernel

/-- R472: a shortfall is rounded up to MiB. -/
theorem test_deficit : (after (.deficitWindowEnd 7 1 0 false) (csrs [(oSq 7 0, 2 ^ 63)] State.reset)).body.field (oSq 7 0x20) 0 24 = 1 := by
  decide +kernel

-- The management processor.

/-- A message of type `k` from coordinate `src`, its fields at their offsets (R432). -/
def mpMsg (k src : Nat) (l : List (Nat × List Byte)) : Msg :=
  { src := src, bytes := l.foldl (fun l f => putBytes l f.1 f.2)
      (leBytes k 1 ++ [1] ++ leBytes src 2 ++ List.replicate 124 0) }
/-- A device at coordinate 0 with MP_REF of a rank and an acting rank, and one message queued. -/
def refereeing (role acting : Nat) (m : Msg) (l : List (Nat × Nat)) : State :=
  let s := csrs ([(oRtr 8, 0x1000), (oMpRef, role * 2 ^ 8 + acting * 2 ^ 24)] ++ l) State.reset
  s.withBody { s.body with dev.mp := { s.body.dev.mp with queue := [m] } }
/-- A whistle or rejoin of serial number `n` that names coordinate `c`. -/
def seqMsg (k n c : Nat) : Msg :=
  mpMsg k 0 (if k = 5 then [(32, leBytes n 4), (16, leBytes c 2)] else [(16, leBytes n 4), (20, leBytes c 2)])
/-- What is left when the message is taken. -/
def drained (role acting : Nat) (l : List (Nat × Nat)) : Body :=
  let b := (refereeing role acting (seqMsg 1 1 0) l).body
  { b with dev.mp := { b.dev.mp with queue := [] } }

theorem witness_RefereesAndAgreement_whistle :
    let c := drained 0 0 []
    takeMsg 1 (refereeing 0 0 (seqMsg 1 1 0) []).body = some (seqMsg 1 1 0, c) ∧
    takeMsg 5 (refereeing 0 0 (seqMsg 5 1 2) []).body = some (seqMsg 5 1 2, c) ∧
    msgAuthentic c (seqMsg 1 1 0) = true ∧ serialDiff (seqMsg 1 1 0).wseq (lastWseq c) 32 = 1 ∧
    msgAuthentic c (seqMsg 1 2 5) = true ∧ serialDiff (seqMsg 1 2 5).wseq (lastWseq c) 32 = 2 ∧
    serialDiff (seqMsg 1 0 5).wseq (lastWseq c) 32 = 0 ∧ (seqMsg 1 1 0).coord = c.coord ∧ (seqMsg 1 1 5).coord ≠ c.coord ∧
    msgAuthentic c (mpMsg 1 3 [(16, [1])]) = false ∧ c.dev.mp.heldSeq = [] ∧
    (List.range 8).all (fun k => takeMsg k State.reset.body == none) = true := by decide +kernel

theorem witness_RefereesAndAgreement_referee :
    let no := drained 3 0 []
    let c := drained 0 0 []
    let sec := drained 1 0 []
    let retire := mpMsg 2 5 []
    let suspect := mpMsg 3 6 [(16, leBytes 5 2)]
    let known : Body := { c with dev.mp := { c.dev.mp with suspects := [(5, 7, 0)] } }
    let late : Body := { drained 1 0 [(oMpRefCoord, 5)] with dev.ticks := 50000000 }
    let due : Body := { late with dev.mp := { late.dev.mp with suspects := [(5, 5, 50000000)] } }
    takeMsg 2 (refereeing 0 0 retire []).body = some (retire, c) ∧ takeMsg 3 (refereeing 0 0 suspect []).body = some (suspect, c) ∧
    takeMsg 2 (refereeing 3 0 retire []).body = some (retire, no) ∧ mpRole no = 3 ∧ mpRole c = 0 ∧ mpActing c = 0 ∧
    mpRole sec = 1 ∧ mpActing sec = 0 ∧ c.isDead 5 = false ∧ refCoord c (mpRole c) = c.coord ∧ c.dev.mp.heldSeq = [] ∧
    retire.num 2 2 = 5 ∧ suspect.num 16 2 = 5 ∧ evidence (addEvidence 5 6 (drained 0 0 [(oRtr 8, 0x2000)])) 5 = false ∧
    evidence (addEvidence 5 6 known) 5 = true ∧ mpRole late = 1 ∧ mpActing late = 0 ∧ evidence late 5 = false ∧
    late.dev.mp.hbTick + 50000000 * 1 ≤ late.dev.ticks ∧ evidence due 5 = true ∧ refCoord due (mpActing due) = 5 ∧
    refCoord due (mpRole due) = due.coord ∧ due.dev.mp.heldSeq = [] ∧
    toldOf c (c.neighbour 7) = false ∧
    toldOf { c with dev.mp := { c.dev.mp with told := [(BitVec.ofNat 16 (c.neighbour 7), 0)] } } (c.neighbour 7) = true ∧
    portEvidence c 7 = some 2 ∧ portEvidence (linked 7 2 [] id).body 7 = none ∧
    takeMsg 4 (refereeing 1 0 (mpMsg 4 0 []) []).body = some (mpMsg 4 0 [], sec) ∧ (mpMsg 4 0 []).num 14 1 < mpRole sec := by decide +kernel

theorem witness_RefereesAndAgreement_sweep :
    let start := mpMsg 6 0 [(16, leBytes 1 4)]
    let agree := fun n => mpMsg 7 0x1000 [(16, leBytes n 4)]
    let stale := mpMsg 6 0 []
    let c := drained 0 0 []
    let runs := drained 0 0 [(oMpAgree, 1 + 2 ^ 32)]
    let alone := drained 0 0 [(oRtr 8, 0)]
    shed c 4 = false ∧ shed (drained 0 0 [(oMpStat, 2 ^ 33)]) 4 = true ∧
    takeMsg 6 (refereeing 0 0 start []).body = some (start, c) ∧ takeMsg 6 (refereeing 0 0 stale []).body = some (stale, c) ∧
    0 < serialDiff (start.num 16 4) (c.field oMpAgree 32 32) 32 ∧ ¬ 0 < serialDiff (stale.num 16 4) (c.field oMpAgree 32 32) 32 ∧
    (drained 0 0 [(oMpStat, 2 ^ 10)]).flag oMpStat 10 = true ∧ alone.flag oMpStat 10 = false ∧
    (List.range 4).all (fun a => decide (alone.axisSize a < 2)) = true ∧
    takeMsg 7 (refereeing 0 0 (agree 1) [(oMpAgree, 1 + 2 ^ 32)]).body = some (agree 1, runs) ∧
    serialDiff ((agree 0).num 16 4) (runs.field oMpAgree 32 32) 32 < 0 ∧
    serialDiff ((agree 1).num 16 4) (runs.field oMpAgree 32 32) 32 = 0 ∧ runs.field oMpAgree 0 2 = 1 ∧
    0 < serialDiff ((agree 2).num 16 4) (runs.field oMpAgree 32 32) 32 ∧ runs.dev.mp.agreeWait = false ∧
    agreeExpected runs (agree 1) = true ∧ agreeExpected runs (agree 2) = false ∧ runs.dev.mp.agreePend = [] ∧
    isActing c = true ∧ isActing (drained 1 0 []) = false := by decide +kernel

/-- R455: a heartbeat of a lower rank starts the takeover wait again. -/
theorem test_heartbeat :
    let s := refereeing 1 0 (mpMsg 4 0 []) []
    (after .heartbeat (s.withBody { s.body with dev.ticks := 77 })).body.dev.mp.hbTick = 77 := by decide +kernel

-- Errors, load, power and heat.

theorem witness_ErrorsPowerAndHeat_mp :
    let s := csrs [(oErr 0, 3 + 3 * 2 ^ 9), (oErr 0x10, 1)] State.reset
    let armed := csrs [(oErr 0x20, 2 ^ 8)] s
    let arm := fun mode cls => 2 ^ 40 + 2 ^ 32 + mode * 2 ^ 24 + cls * 2 ^ 12
    let hot := csrs [(oMpLoad, 0), (oMpShed, 0x6020)] State.reset
    mayWrite pf (oErr 8) = true ∧ mayWrite (.host 0 1) (oErr 8) = false ∧ s.body.field (oErr 0) 0 9 = 3 ∧
    s.body.field (oErr 0) 9 10 = 3 ∧ s.body.field (oErr 8) 0 9 = 0 ∧ (4 + 512 - 0) % 512 > 3 ∧
    mayWrite pf (oErr 0x18) = true ∧ s.body.flag (oErr 0x20) 8 = false ∧ armed.body.flag (oErr 0x20) 8 = true ∧
    s.body.flag (oErr 0x10) 0 = true ∧ bitOf (arm 1 1) 40 = true ∧ encodingOk (oErr 0x18) (arm 1 1) = true ∧ encodingOk (oErr 0x18) (arm 0 1) = false ∧
    injAllowed (bitsOf (arm 1 1) 24 3) (bitsOf (arm 1 1) 12 4) = true ∧ injAllowed (bitsOf (arm 3 1) 24 3) (bitsOf (arm 3 1) 12 4) = false ∧
    injected s.body (detOf 11 11) 4 = none ∧ armedAt hot.body (detOf 14 0) = false ∧ hot.body.field oMpShed 8 8 = 0x60 ∧
    hot.body.dev.mp.updAsked = false ∧ hot.body.dev.mp.agreeAsked = false ∧
    shed (csrs [(oMpStat, 2 ^ 32)] State.reset).body 3 = true ∧ hot.body.field oMpShed 0 8 = 0x20 ∧ (0x61 + 0x61 + 0x61) / 3 > 0x60 ∧ (0x1F + 0x1F + 0x1F) / 3 < 0x20 ∧
    hot.body.dev.mp.hiRun < 2 ∧ (hot.withBody { hot.body with dev.mp := { hot.body.dev.mp with hiRun := 2, loRun := 9 } }).body.dev.mp.loRun = 9 ∧
    (List.range 7).all (fun t => !shed hot.body t) = true ∧
    armedAt hot.body (detOf 13 0) = false ∧ bitOf hot.body.dev.mp.kicks.toNat 3 = false ∧ bitOf (8#4).toNat 3 = true ∧
    mayWrite pf oMpCtl = true ∧ mayWrite .tap oMpCtl = false ∧ hot.body.dev.hi.cmds = [] ∧ hot.body.retired = false := by decide +kernel

/-- A staged image at the top of HBM is read as far as HBM goes, whatever is said of it. -/
theorem witness_ErrorsPowerAndHeat_update :
    let s := csrs [(oMpFwStage, hbmTop - 2 ^ 12)] State.reset
    mayWrite pf oMpCtl = true ∧ shed s.body 3 = false ∧ (stagedImage s.env s.body).1.length = 2 ^ 12 := by decide +kernel

theorem witness_ErrorsPowerAndHeat_heat :
    let s := csrs [(oDevPwr, 1500 + 16 * 2 ^ 24)] State.reset
    let brake := csrs [(oDevTherm, 4)] s
    let warm := csrs [(oDevTherm, 1)] s
    let hot := s.withBody { s.body with dev.mp := { s.body.dev.mp with temps := s.body.dev.mp.temps.set 39 105, dutyRun := 9 } }
    s.body.field oDevPwr 0 16 = 1500 ∧ s.body.flag oDevTherm 2 = false ∧ s.body.flag oDevTherm 0 = false ∧
    brake.body.flag oDevTherm 2 = true ∧ warm.body.flag oDevTherm 0 = true ∧ min (1501 / 1) 0xFFFF > 1500 ∧
    100 * 1424 < 95 * 1500 ∧ ¬ 100 * 1425 < 95 * 1500 ∧ hot.body.dev.mp.dutyRun = 9 ∧ hot.body.dev.mp.powers = [] ∧
    armedAt s.body (detOf 12 0) = false ∧ armedAt s.body (detOf 12 51) = false ∧
    s.body.dev.mp.temps.get 0 39 = 0 ∧ hot.body.dev.mp.temps.get 0 39 = 105 ∧ s.body.dev.mp.temps.get 0 40 < 95 := by decide +kernel

/-- R508: the brake sets DUTY to 4, and an average over the limit lowers it by one. -/
theorem test_power :
    let s := csrs [(oDevPwr, 1500 + 16 * 2 ^ 24)] State.reset
    (after (.pwrBrake true) s).body.field oDevPwr 24 5 = 4 ∧ (after (.powerSample 1501) s).body.field oDevPwr 24 5 = 15 := by decide +kernel

-- Substitution and resets.

/-- Tile 0 at the front of the substitution queue, in a state of MP_SUBST, held and drained. -/
def substituting (st : Nat) (l : List (Nat × Nat)) : State :=
  let s := csrs ([(oSubst 0, 3 * 2 ^ 30), (oMpSubst, st * 2 ^ 18)] ++ l) State.reset
  s.withBody { s.body with dev.mp := { s.body.dev.mp with substs := [(0, .hostCommand)] } }

theorem witness_Substitution_map :
    let s := csrs [(oSubst 0, 2 ^ 31)] State.reset
    let dbl := at0 fun t => { t with core := { t.core with double := true } }
    hostOrMp pf = true ∧ hostOrMp .tap = false ∧ State.reset.body.siteOf 0 = 0 ∧ State.reset.body.holdOf 0 = false ∧
    s.body.holdOf 0 = true ∧ s.body.siteOf 0 = 0 ∧ siteAllowed s.body 0 384 = true ∧ siteAllowed s.body 0 407 = true ∧
    siteAllowed s.body 0 408 = false ∧ siteAllowed s.body 0 1 = false ∧ bitsOf (2 ^ 31 + 407) 0 9 = 407 ∧ bitOf (2 ^ 31 + 407) 31 = true ∧
    bitOf 0 31 = false ∧ s.body.dev.held = [] ∧ (dbl.core (dbl.body.siteOf 0)).double = true ∧
    (State.reset.core (State.reset.body.siteOf 383)).double = false ∧ causeReal dbl.body 0 .doubleFault = true ∧
    causeReal State.reset.body 383 .doubleFault = false ∧ causeReal State.reset.body 383 .uncorrectable = false ∧
    causeReal State.reset.body 383 .hostCommand = true ∧ causeReal State.reset.body 0 (.correctedBurst 31) = false := by
  decide +kernel

/-- R441: an uncorrectable error in a bank is a cause for its tile; 65 corrected ones within a second are, and 64 are not. -/
theorem test_substCauses :
    let b := State.reset.body
    let ue := recordErr State.reset.env { kind := 6, sev := 2, det := detOf 1 5, site := 5 } b
    let ce := fun n : Nat => { b with dev.mp := { b.dev.mp with ces := b.dev.mp.ces.set (5 * 32 + 31) (List.replicate n 0) } }
    causeReal ue 5 .uncorrectable = true ∧ causeReal ue 4 .uncorrectable = false ∧ causeReal (ce 65) 5 (.correctedBurst 31) = true ∧
    causeReal (ce 64) 5 (.correctedBurst 31) = false ∧
    (after (.substStart 5 .uncorrectable) (State.reset.withBody ue)).body.holdOf 5 = true ∧
    (after (.substStart 5 .uncorrectable) State.reset).body.holdOf 5 = false := by decide +kernel

theorem witness_Substitution_place :
    let s := substituting 2 []
    let none_ := substituting 3 [(oMpSubst, 3 * 2 ^ 18 + (2 ^ 24 - 1) * 2 ^ 24), (oMpCtl, 4)]
    let over_ := csrs [(oSq 1 8, 2 ^ 17), (oSq 1 0x28, 2)] s
    let absent := directing 8 none [(oMpStep 0, 0x20_0001), (oSubst 0, 3 * 2 ^ 30), (oMpSubst, 2 * 2 ^ 18)]
    let waits := absent.withBody { absent.body with dev.eff := absent.body.dev.eff.set (oSqTile 0) 8, dev.mp := s.body.dev.mp }
    State.reset.body.dev.mp.substs = [] ∧ callOver State.reset.body 383 = none ∧
    s.body.substState = 2 ∧ s.body.flag (oSubst 0) 30 = true ∧ callOver s.body 0 = none ∧ callOver over_.body 0 ≠ none ∧
    none_.body.substState = 3 ∧ chooseBench none_.body (none_.body.siteOf 0) = none ∧ none_.body.flag oMpCtl 2 = true ∧
    chooseBench s.body (s.body.siteOf 0) = some 384 ∧ stepImage s.env 0 s.body = (.none_, s.body) ∧ s.body.siteOf 0 < 384 ∧
    (stepImage waits.env 0 waits.body).1 = .wait ∧ waits.body.substState = 2 ∧ waits.body.flag (oSubst 0) 30 = true ∧ callOver waits.body 0 = none ∧ chooseBench waits.body (waits.body.siteOf 0) = some 384 ∧
    (substituting 4 []).body.substState = 4 ∧ (substituting 4 []).body.field oMpSubst 9 9 = 0 ∧
    (substituting 1 []).body.substState ≠ 4 ∧ s.body.dev.mp.restoring = false ∧
    (let u := (substituting 4 []).withBody { (substituting 4 []).body with
       dev.mp := { (substituting 4 []).body.dev.mp with restoring := true } }
     u.body.dev.mp.restoring = true ∧ u.body.substState = 4 ∧ callOver u.body 0 = none) ∧
    (csrs [(oSubst 0, 2 ^ 31)] (substituting 1 [])).body.flag (oSubst 0) 30 = false := by decide +kernel

/-- R443: the bench site of the same column is taken, and SITE names it. -/
theorem test_substitution : chooseBench (substituting 2 []).body 23 = some 405 ∧
    (after .substPlaceRestore (substituting 2 [])).body.siteOf 0 = 384 := by decide +kernel

theorem witness_Resets :
    let v := 2 ^ 31 + 0xD5 * 2 ^ 32
    let member := csrs [(oSq 0 0, 2 ^ 63 + 2 ^ 52)] State.reset
    let env : BootEnv := noBoot
    State.reset.body.mem.wf = true ∧ perstChosen State.reset.body 0 = true ∧ perstChosen State.reset.body 1 = false ∧
    bitOf v 31 = true ∧ bitsOf v 32 8 = 0xD5 ∧ isPf pf = true ∧ isPf .mp = false ∧ bitsOf (2 ^ 31) 32 8 ≠ 0xD5 ∧
    env.alignFail = none ∧ ({ env with alignFail := some 0 } : BootEnv).alignFail ≠ none ∧ env.flashOk = true ∧
    bitOf (2 ^ 30 + 7 * 2 ^ 9) 31 = false ∧ bitOf (2 ^ 30 + 7 * 2 ^ 9) 30 = true ∧ bitsOf (2 ^ 30 + 7 * 2 ^ 9) 9 3 = 7 ∧
    (List.range 8).all (fun q => State.reset.body.callState q == 0) = true ∧
    (at0 id).body.tileOf (State.reset.body.siteOf 0) ≠ none ∧
    bitOf (2 ^ 29 + 407) 29 = true ∧ bitsOf (2 ^ 29 + 407) 0 9 = 407 ∧ bitsOf (2 ^ 29 + 408) 0 9 = 408 ∧
    State.reset.body.tileOf 407 = none ∧ State.reset.body.tileOf 383 ≠ none ∧ alignFailed State.reset.body = false ∧
    alignFailed (csrs [(oDevStat, 5 + 2 * 2 ^ 8)] State.reset).body = true ∧ (State.reset.body.site 407).cp.ops = [] ∧
    (copyOp (copyDesc 1 1 4 0) id).toLeave = true ∧
    squadOfFn State.reset.body 0 8 = none ∧ squadOfFn member.body 0 1 = some 0 := by decide +kernel

/-- R419: a device whose alignment failed takes a cold reset alone; R382: an operation that waits outlives its tile's reset. -/
theorem test_resets :
    let dark := csrs [(oDevStat, 5 + 2 * 2 ^ 8)] State.reset
    let put := copying (copyOp (copyDesc 1 0 4 0) id)
    let waits := csrs [(oSubst 0, 2 ^ 31)] put
    (after (.warmReset 0 noBoot) dark).body.field oDevStat 8 8 = 2 ∧ (after (.coldReset { noBoot with flashOk := false }) dark).body.field oDevStat 8 8 = 4 ∧
    ((after (.tileReset pf (2 ^ 29)) waits).body.site 0).cp.ops.map (fun o => o.orphan) = [true] ∧
    ((after (.tileReset pf (2 ^ 29)) put).body.site 0).cp.ops = [] := by decide +kernel

-- The host interface.

/-- Queue pair 0 of function `f` of port 0, 16 entries in each ring, with one command posted (R488, R489). -/
def posting (f opc a0 a1 a2 : Nat) (l : List (Nat × Nat)) : State :=
  let s := csrs ([(oHiPort 0, 2), (oHiQ 0 f 0 0, 0x401), (oHiQ 0 f 0 1, 0x1400), (oHiQ 0 f 0 2, 1)] ++ l) State.reset
  s.withBody { s.body with
    mem := s.body.mem.setNum (windowBase 0) 64 (opc + 7 * 2 ^ 16 + a0 * 2 ^ 64 + a1 * 2 ^ 128 + a2 * 2 ^ 192) }
/-- The entry that the queue pair's head names. -/
def posted (b : Body) (f : Nat) : Nat :=
  b.mem.num (windowBase 0 + b.field (oHiQ 0 f 0 0) 12 33 * 4096 + 64 * (sqHead b 0 f 0 % sqSize b 0 f 0)) 64
/-- Is the posted entry offered to the management processor? -/
def isOffered (b : Body) (f : Nat) : Bool :=
  queueServed b 0 f 0 && b.cmd 0 f 0 == none && sqHead b 0 f 0 != sqTail b 0 f 0 && hostUp b 0 && b.mem.wf &&
    (cqTail b 0 f 0 % cqSize b 0 f 0 + 1) % cqSize b 0 f 0 != cqHead b 0 f 0 % cqSize b 0 f 0
/-- Is it an entry whose reserved bits are zero? -/
def isPlain (w : Nat) : Bool := bitsOf w 8 8 == 0 && bitsOf w 32 32 == 0 && bitsOf w 256 256 == 0

theorem witness_HostQueuesAndPorts_queue :
    let b := (posting 0 0 0 0 0 []).body
    let off := (posting 0 0 0 0 0 [(oHiQ 0 0 0 0, 0x400)]).body
    let rsv := (posting 0 (2 ^ 8) 0 0 0 []).body
    queueOk 0 0 1015 = true ∧ queueOk 0 0 1016 = false ∧ queueOk 1 8 119 = true ∧ queueOk 0 9 0 = false ∧ queueOk 2 0 0 = false ∧
    b.flag (oHiQ 0 0 0 0) 0 = true ∧ off.flag (oHiQ 0 0 0 0) 0 = false ∧ sqSize b 0 0 0 = 16 ∧ cqSize b 0 0 0 = 16 ∧
    sqTail b 0 0 0 = 1 ∧ sqHead b 0 0 0 = 0 ∧ ¬ 16 ≤ (1 + 16 - 0 % 16) % 16 + (15 + 16 - 1 % 16) % 16 ∧ 16 ≤ (1 + 16 - 0 % 16) % 16 + (0 + 16 - 1 % 16) % 16 ∧
    queueServed off 0 0 0 = false ∧ isOffered b 0 = true ∧ isPlain (posted b 0) = true ∧ bitsOf (posted b 0) 16 16 = 7 ∧
    isOffered rsv 0 = true ∧ isPlain (posted rsv 0) = false ∧ bitsOf (posted rsv 0) 0 8 = 0 ∧
    hostUp State.reset.body 0 = false := by decide +kernel

theorem witness_HostQueuesAndPorts_commands :
    let s := fun f opc a0 a1 a2 => (posting f opc a0 a1 a2 []).body
    let all := [s 0 0 0 0 0, s 0 7 0 0 0, s 0 4 0 0 0, s 0 5 0 0 0, s 0 1 0x1_0000 383 0, s 0 1 1 0 0, s 0 2 0 0 0, s 0 3 0 5 0,
      s 0 6 0x1_0000 0x100_0000 0, s 0 6 0 0 0]
    let w := posted (s 0 1 0x1_0000 383 0) 0
    let vf := (posting 1 1 0 0 0 []).body
    let busy := { s 0 2 0 0 0 with dev.mp := { (s 0 2 0 0 0).dev.mp with substs := [(0, .hostCommand)] } }
    let ref := csrs [(oMpRef, 0)] (posting 0 3 0 5 0 [])
    all.all (fun b => isOffered b 0 && isPlain (posted b 0)) = true ∧
    all.map (fun b => bitsOf (posted b 0) 0 8) = [0, 7, 4, 5, 1, 1, 2, 3, 6, 6] ∧ bitsOf (posted (s 0 4 0 0 0) 0) 64 192 = 0 ∧
    bitsOf (posted (s 0 4 1 0 0) 0) 64 192 ≠ 0 ∧ (s 0 5 0 0 0).flag oMpStat 9 = false ∧
    (posting 0 5 0 0 0 [(oMpStat, 2 ^ 9)]).body.flag oMpStat 9 = true ∧
    bitsOf w 128 64 = 383 ∧ bitsOf w 64 64 = 0x1_0000 ∧ bitsOf w 192 64 = 0 ∧
    cmdTileOk (s 0 1 0 0 0) { port := 0, fn := 0, k := 0, entry := w } 383 = true ∧
    [3, 5, 6].all (fun o => isOffered (posting 1 o 0 0 0 []).body 1) = true ∧ isOffered vf 1 = true ∧ cmdTileOk vf { port := 0, fn := 1, k := 0, entry := posted vf 1 } 0 = false ∧
    (State.reset.core (State.reset.body.siteOf 383)).stopped = true ∧ State.reset.body.dev.mp.substs = [] ∧
    (running id).body.siteOf 0 = 0 ∧ ((running id).core 0).stopped = false ∧
    State.reset.body.siteOf 383 < 408 ∧ State.reset.body.tileOf 383 ≠ none ∧ (State.reset.body.site 383).yielded = false ∧
    busy.dev.mp.substs = [(0, .hostCommand)] ∧ isActing (s 0 3 0 5 0) = false ∧ isActing ref.body = true ∧
    refCoord ref.body (mpRole ref.body) = ref.body.coord ∧ ref.body.dev.mp.heldSeq = [] ∧ ref.body.coord = 0 ∧
    (posting 0 3 0 5 0 []).body.coord ≠ 5 := by decide +kernel

theorem witness_HostQueuesAndPorts_ports :
    let s := csrs [(oHiPort 0, 2), (oHiBar2 0, 704 * 2 ^ 30)] State.reset
    let w := fun v => RegSpec.apply ((regSpec (oHiBar2 0)).getD {}) (State.reset.body.csr (oHiBar2 0)) v
    mayWrite pf (oHiBar2 0) = true ∧ mayWrite (.host 0 1) (oHiBar2 0) = false ∧ bitsOf (w (704 * 2 ^ 30)) 30 10 = 704 ∧
    bitsOf (w (705 * 2 ^ 30)) 30 10 = 705 ∧ hostUp s.body 0 = true ∧ hostUp s.body 1 = false ∧
    16 ∈ [4, 8, 16] ∧ 7 ∈ [5, 6, 7] ∧ armedAt s.body (detOf 10 0) = false ∧ armedClass s.body 6 = false ∧
    (List.range 12).all (fun i => !stackLost s.body i && !armedAt s.body (detOf 7 i)) = true ∧ s.body.dev.poison = [] ∧
    s.body.field (oHiBar2 0) 30 10 * 2 ^ 30 + (2 ^ 36 - 1) < hbmTop ∧ shed s.body 3 = false ∧
    shed (csrs [(oMpStat, 2 ^ 32)] s).body 3 = true ∧ s.body.flash.wf = true := by decide +kernel

/-- R488: NOP completes with its CID, the new SQ_HEAD and phase 1. -/
theorem test_cmdNop : (after (.cmdNop 0 0 0) (posting 0 0 0 0 0 [])).body.mem.num (windowBase 0 + 0x1000) 16 =
    1 + 7 * 2 ^ 16 + 2 ^ 40 := by decide +kernel

-- Register access and the mesh.

theorem witness_RegisterAccessAndMesh_registers :
    let b := State.reset.body
    let word := fun (o v : Nat) => (regSpec o).map fun x => encodingOk o (x.apply (b.csr o) v)
    let tap := csrs [(oDevDbg, 3)] State.reset
    (List.range 2).all (fun p => !armedAt b (detOf 10 p)) = true ∧ csrSized 4 8 = false ∧ csrSized 0 2 = false ∧
    csrSized 4 4 = true ∧ csrSized 0x20 8 = true ∧ csrPlace b pf 0xFFFFFF8 = .absent ∧ csrSized 0xFFFFFF8 8 = true ∧
    bootFailed b = false ∧ word oMpRefCoord 5 = some true ∧ word oMpEpoch 1 = some true ∧ word (oTr 0x18) 0x100 = some true ∧
    word (oTr 0x28) 0 = some true ∧ word oSqArb 0 = some true ∧ word oMpShed 0x6020 = some true ∧ word oMpFwStage 0x1000 = some true ∧
    word (oMpStep 0) 1 = some true ∧ word (oMpStep 7) 1 = some true ∧ word (oTr 0x30) 1 = some true ∧
    word (oRtr 0x28) (b.csr (oRtr 0x28)) = some true ∧ word (oErr 0x10) 1 = some true ∧
    [oMpRefCoord, oMpEpoch, oTr 0x18, oTr 0x28, oSqArb].all (mayWrite pf) = true ∧ mayWrite .tap oMpEpoch = false ∧
    bitOf (2 ^ 31) 31 = true ∧ bitOf (2 ^ 30) 31 = false ∧ bitOf (2 ^ 30) 30 = true ∧ bitOf (2 ^ 29) 30 = false ∧
    b.flag oDevDbg 0 = false ∧ tap.body.flag oDevDbg 0 = true ∧ tap.body.flag oDevDbg 1 = true ∧
    bitOf (0x10 * 8) 2 = false ∧ bitOf 4 2 = true ∧
    csrLoad .tap (bitsOf (2 * 8) 3 25 * 8) 8 tap.fuse tap.time tap.body =
      ((csrLoad .tap (bitsOf (2 * 8) 3 25 * 8) 8 tap.fuse tap.time tap.body).1, tap.time, tap.body) := by decide +kernel

theorem witness_RegisterAccessAndMesh_mesh :
    let s := at0 (owned 6)
    let rd : MeshReq := { src := 408, req := 9, dst := .phys (siteBase 0), write := false, bytes := [], len := 8 }
    let wr := { rd with dst := .tile 0 0, write := true, bytes := [1, 2] }
    let hole := { rd with dst := .phys 0x8000_0000_0000 }
    let tb := fun (req n : Nat) => { rd with req := req, dst := .phys (0x2000_0000_0000 + oTbTime), len := n }
    let held := csrs [(oSubst 0, 2 ^ 31)] State.reset
    let serves := fun (t : State) (n : Nat) => (t.body.site 0).servesAll 6 [(0, n)]
    reachesMemory s.body rd = true ∧ s.body.flag (oErr 0x20) 8 = false ∧ held.body.holdOf 0 = true ∧ s.body.holdOf 0 = false ∧
    donorWaits s.body 0 ((s.body.squadAt wr.src).getD 8) = false ∧ s.body.siteOf 0 = 0 ∧
    regionOf (siteBase 0) = .sram 0 0 ∧ regionOf (siteBase 407 + 0x1FFFFF) = .sram 407 0x1FFFFF ∧
    rangeBanks (0, 8) = [0] ∧ ((s.body.site 0).bank 0).waking = false ∧ serves s 8 = true ∧ serves (at0 (owned 1)) 8 = false ∧
    regionOf 0x8000_0000_0000 = .hole ∧ reachesMemory s.body hole = true ∧
    regionOf (0x2000_0000_0000 + oTbTime) = .csr oTbTime ∧ agentOf (tb 9 8) = some pf ∧ bootFailed s.body = false ∧
    agentOf (tb 10 4) = some .mp ∧
    (let wakes := at0 fun t => (owned 6 t).setBank 0 { (owned 6 t).bank 0 with pwr := .wakingRetain, target := 2 }
     (wakes.body.site 0).serves 6 0 = true ∧ ((wakes.body.site 0).bank 0).waking = true) ∧
    0xBF_FFFF_FFF8 + 8 ≤ hbmTop ∧ ((List.range 12).all fun i => !stackLost s.body i) = true ∧ s.body.dev.poison = [] ∧
    regionOf 0x4000_0000_0000 = .host 0 ∧ regionOf (0x4000_0000_0000 + 8) = .host 0 ∧
    hostUp (csrs [(oHiPort 0, 2)] s).body 0 = true ∧ regionOf (0x2000_0000_0000 + 4) = .csr 4 ∧ csrSized 4 8 = false ∧
    csrSized oMpEpoch 8 = true ∧ agentOf { rd with req := 1 } = none ∧ reachesMemory s.body { rd with src := 409 } = false ∧
    0x8000_0000_0000 % 0x10000 + 8 ≤ 0x10000 := by decide +kernel

/-- R32: a write on the mesh reaches the SRAM of the tile that it names. -/
theorem test_meshRequest :
    let s := at0 (owned 6)
    (after (.meshRequest { src := 408, req := 9, dst := .tile 0 0x10, write := true, bytes := [1, 2], len := 2 }) s).body.mem.num
      (siteBase 0 + 0x10) 2 = 0x201 := by decide +kernel

/-- R10: a CSR write of a read-write register stores its value. -/
theorem test_csrWrite : (after (.csrWrite pf oMpRefCoord 8 0x123) State.reset).body.csr oMpRefCoord = 0x123 := by decide +kernel

end Sys2Proof.Tests
end

section
/-! Retiring an instruction that is no branch: the loop decisions of R178 level by level, the end of a delay slot
(R175), and where the core goes next. -/
namespace Sys2Proof.Machine

/-- Level 0's decision of R178 on its own: the loop registers and the next PC. -/
def LoopBank.decideLevel0 (l : LoopBank) (pc : Pc) : LoopBank × Pc :=
  if l.l0.active && l.l0.le == pc then
    ({ l with l0.lc := l.l0.lc - 1 }, if l.l0.lc - 1 != 0 then l.l0.ls else pc + 4)
  else (l, pc + 4)

/-- `LoopBank.decide` asks level 1 first and leaves to level 0 what level 1 does not continue (R179). -/
theorem LoopBank.decide_eq (l : LoopBank) (pc : Pc) : l.decide pc =
    if l.l1.active && l.l1.le == pc then
      if l.l1.lc - 1 != 0 then ({ l with l1.lc := l.l1.lc - 1 }, l.l1.ls)
      else LoopBank.decideLevel0 { l with l1.lc := l.l1.lc - 1 } pc
    else l.decideLevel0 pc := rfl

/-- A level decides at an address: it is active and the address is its LE. -/
theorem LoopReg.decides_iff (r : LoopReg) (pc : Pc) : (r.active && r.le == pc) = true ↔ r.lc ≠ 0 ∧ r.le = pc := by
  simp [LoopReg.active]

/-- A level does not decide at an address. -/
theorem LoopReg.idle_iff (r : LoopReg) (pc : Pc) : (r.active && r.le == pc) = false ↔ r.lc = 0 ∨ r.le ≠ pc := by
  rw [← Bool.not_eq_true, r.decides_iff, Decidable.not_and_iff_or_not, Decidable.not_not]

/-- A count runs out at its last pass. -/
theorem LoopReg.runsOut_iff (r : LoopReg) : r.lc - 1#32 = 0#32 ↔ r.lc = 1#32 := by
  constructor <;> intro h <;> bv_omega

theorem LoopBank.decideLevel0_idle {l : LoopBank} {pc : Pc} (h : l.l0.lc = 0 ∨ l.l0.le ≠ pc) :
    l.decideLevel0 pc = (l, pc + 4) := by
  simp only [LoopBank.decideLevel0, (l.l0.idle_iff pc).2 h, Bool.false_eq_true, if_false]

theorem LoopBank.decideLevel0_decides {l : LoopBank} {pc : Pc} (hlc : l.l0.lc ≠ 0) (hle : l.l0.le = pc) :
    l.decideLevel0 pc = ({ l with l0.lc := l.l0.lc - 1 }, if l.l0.lc = 1 then pc + 4 else l.l0.ls) := by
  simp only [LoopBank.decideLevel0, (l.l0.decides_iff pc).2 ⟨hlc, hle⟩, if_true]
  by_cases h : l.l0.lc = 1 <;> simp [l.l0.runsOut_iff, h]

theorem LoopBank.decide_level1_idle {l : LoopBank} {pc : Pc} (h : l.l1.lc = 0 ∨ l.l1.le ≠ pc) :
    l.decide pc = l.decideLevel0 pc := by
  simp only [LoopBank.decide_eq, (l.l1.idle_iff pc).2 h, Bool.false_eq_true, if_false]

theorem LoopBank.decide_level1_continues {l : LoopBank} {pc : Pc} (hlc : l.l1.lc ≠ 0) (hle : l.l1.le = pc)
    (hlast : l.l1.lc ≠ 1) : l.decide pc = ({ l with l1.lc := l.l1.lc - 1 }, l.l1.ls) := by
  simp only [LoopBank.decide_eq, (l.l1.decides_iff pc).2 ⟨hlc, hle⟩, if_true]
  simp [l.l1.runsOut_iff, show ¬ l.l1.lc = 1#32 from hlast]

theorem LoopBank.decide_level1_ends {l : LoopBank} {pc : Pc} (hlast : l.l1.lc = 1) (hle : l.l1.le = pc) :
    l.decide pc = LoopBank.decideLevel0 { l with l1.lc := 0 } pc := by
  have hlc : l.l1.lc ≠ 0 := by simp [hlast]
  simp [LoopBank.decide_eq, (l.l1.decides_iff pc).2 ⟨hlc, hle⟩, hlast]

/-- No active level ends at an address where neither level decides. -/
theorem LoopBank.atEnd_eq_false_iff (l : LoopBank) (pc : Pc) :
    l.atEnd pc = false ↔ (l.l0.lc = 0 ∨ l.l0.le ≠ pc) ∧ (l.l1.lc = 0 ∨ l.l1.le ≠ pc) := by
  rw [LoopBank.atEnd, Bool.or_eq_false_iff, LoopReg.idle_iff, LoopReg.idle_iff]

/-- A retiring delay slot hands over to its branch (R175). -/
theorem CoreSt.retire_slot {c : CoreSt} {d : DelaySlot} (h : c.dslot = some d) :
    c.retire.pc = (if d.taken then d.target else d.branch + 8) ∧ c.retire.dslot = none := by
  simp only [CoreSt.retire, CoreSt.shadowStep_dslot, h]
  split <;> simp

/-- Outside a delay slot a retiring instruction goes where a known loop decision sends it (R178). -/
theorem CoreSt.retire_of_decide {c : CoreSt} {l : LoopBank} {p : Pc} (h : c.dslot = none)
    (hd : c.loops.decide c.pc = (l, p)) : c.retire.pc = p ∧ c.retire.loops = l := by
  simpa only [hd] using CoreSt.retire_straight h

/-- Settles O11: in a delay slot by the branch that it belongs to, elsewhere by the decision of level 1 and then that of
level 0. -/
theorem retireGoesWhere : Obligations.RetireGoesWhere := by
  intro c
  refine ⟨fun d hd ht => ?taken, fun d hd ht => ?untaken, fun hd hend => ?next, fun hd hlc hle hlast => ?continue1,
    fun hd h1 hlc hle hlast => ?continue0, fun hd h1 hlast hle => ?end0, fun hd hlast hle h0 => ?end1,
    fun hd hlast hle hlc0 hle0 => ?both⟩
  case taken => simpa only [ht, if_true] using CoreSt.retire_slot hd
  case untaken => simpa only [ht, Bool.false_eq_true, if_false] using CoreSt.retire_slot hd
  case next =>
    obtain ⟨h0, h1⟩ := (LoopBank.atEnd_eq_false_iff _ _).1 hend
    exact CoreSt.retire_of_decide hd ((LoopBank.decide_level1_idle h1).trans (LoopBank.decideLevel0_idle h0))
  case continue1 => exact CoreSt.retire_of_decide hd (LoopBank.decide_level1_continues hlc hle hlast)
  case continue0 =>
    refine CoreSt.retire_of_decide hd ((LoopBank.decide_level1_idle h1).trans ?_)
    simp only [LoopBank.decideLevel0_decides hlc hle, hlast, if_false]
  case end0 =>
    have hlc : c.loops.l0.lc ≠ 0 := by simp [hlast]
    refine CoreSt.retire_of_decide hd ((LoopBank.decide_level1_idle h1).trans ?_)
    simp [LoopBank.decideLevel0_decides hlc hle, hlast]
  case end1 =>
    exact CoreSt.retire_of_decide hd ((LoopBank.decide_level1_ends hlast hle).trans (LoopBank.decideLevel0_idle h0))
  case both =>
    exact CoreSt.retire_of_decide hd
      ((LoopBank.decide_level1_ends hlast hle).trans (LoopBank.decideLevel0_decides hlc0 hle0))

end Sys2Proof.Machine
end

section
/-! Taking a synchronous exception: what a restart address undoes (R198), entry to the handler (R196), and the stop of a
core that is at TILE_SUPER with IE = 0 (R203). -/
namespace Sys2Proof.Machine

/-- Where a core that faults starts again: in a delay slot at the branch, elsewhere at the instruction itself (R198). -/
def CoreSt.restartPc (c : CoreSt) : Pc :=
  match c.dslot with
  | some d => d.branch
  | none => c.pc

/-- Rewinding a core goes to the restart address, leaves the delay slot, and touches nothing but the scalar registers and
the shadow besides. -/
theorem CoreSt.rewind_eq (c : CoreSt) : ∃ x shOld shLeft,
    c.rewind = { c with x := x, pc := c.restartPc, shOld := shOld, shLeft := shLeft, dslot := none } := by
  cases hd : c.dslot with
  | none =>
    refine ⟨c.x, c.shOld, c.shLeft, ?_⟩
    simp only [CoreSt.rewind, CoreSt.restartPc, hd]
    rw [← hd]
  | some d =>
    cases hl : d.link with
    | none => exact ⟨c.x, d.shOld, d.shLeft, by simp only [CoreSt.rewind, CoreSt.restartPc, hd, hl]⟩
    | some rv =>
      refine ⟨(c.setX rv.1 rv.2).x, d.shOld, d.shLeft, ?_⟩
      simp only [CoreSt.rewind, CoreSt.restartPc, hd, hl]
      unfold CoreSt.setX
      split <;> rfl

/-- EXC_INFO holds the cause in its low byte (R205). -/
theorem excWord_cause (cause : Nat) (int ds le lvl : Bool) (pos used rst : Nat) :
    (excWord cause int ds le lvl pos used rst).toNat % 256 = cause % 256 := by
  rw [excWord, BitVec.toNat_ofNat]
  omega

/-- The core as R203 stops it. -/
def CoreSt.doubleStop (c : CoreSt) (cause : Nat) : CoreSt :=
  { c.rewind with
    stopped := true, double := true, dds := c.dslot.isSome, lastCause := BitVec.ofNat 8 cause
    wait := none, issue := none, mstall := none, stopReq := false }

/-- The tile fault that R203 records. -/
def tileFault (n : Nat) (c : CoreSt) : ErrRec := { kind := 6, sev := 2, site := n, addr := c.pc.toNat }

@[simp] theorem State.core_onCore (s : State) (n : Nat) (f : CoreSt → CoreSt) : (s.onCore n f).core n = f (s.core n) := by
  simp [State.core, State.onCore, State.onSite, State.withBody]

@[simp] theorem State.core_withBody_recordErr (s t : State) (r : ErrRec) (e : Env) (n : Nat) :
    (s.withBody (recordErr e r t.body)).core n = t.core n := by
  simp [State.core, State.withBody]

/-- At JOB, or with IE = 1, an exception enters the handler and changes nothing but the core (R196). -/
theorem State.raises_enters {s : State} {n : Nat} (cause addr : Nat) (h : (s.core n).priv = false ∨ (s.core n).ie = true) :
    s.raises n cause addr = s.onCore n fun c => c.enter cause addr false (c.loops.atEnd c.pc) := by
  have hc : ((s.core n).priv && !(s.core n).ie) = false := by rcases h with h | h <;> simp [h]
  simp only [State.core] at hc
  simp only [State.raises, takeExc, hc, Bool.false_eq_true, if_false]
  rfl

/-- At TILE_SUPER with IE = 0 an exception stops the core and records a tile fault (R203). -/
theorem State.raises_stops {s : State} {n : Nat} (cause addr : Nat) (hp : (s.core n).priv = true)
    (hi : (s.core n).ie = false) :
    s.raises n cause addr = s.withBody (recordErr s.env (tileFault n (s.core n))
      (s.onCore n fun _ => (s.core n).doubleStop cause).body) := by
  simp only [State.core] at hp hi
  simp only [State.raises, takeExc, hp, hi, Bool.not_false, Bool.and_true, if_true]
  rfl

/-- Settles O24: entry and stop both build on the rewound core, which differs from the faulting one only in its scalar
registers, its shadow, its PC and its delay slot. -/
theorem exceptionEntry : Obligations.ExceptionEntry := by
  intro s n cause addr hcause
  obtain ⟨x, shOld, shLeft, hr⟩ := (s.core n).rewind_eq
  refine ⟨fun h => ?enters, fun hp hi => ?stops⟩
  case enters =>
    have hinfo : ((s.core n).enter cause addr false ((s.core n).loops.atEnd (s.core n).pc)).excInfo.toNat % 256 = cause :=
      (excWord_cause ..).trans (Nat.mod_eq_of_lt hcause)
    rw [State.raises_enters cause addr h, State.core_onCore]
    refine ⟨?epc, ?_, rfl, rfl, ?_, ?_, rfl, hinfo, rfl, ?_, rfl, rfl, rfl⟩
    case epc => show _ = (s.core n).restartPc; simp only [CoreSt.enter, hr]
    all_goals simp only [CoreSt.enter, hr]
  case stops =>
    have hcore : (s.raises n cause addr).core n = (s.core n).doubleStop cause := by
      rw [State.raises_stops cause addr hp hi, State.core_withBody_recordErr, State.core_onCore]
    simp only [hcore]
    refine ⟨rfl, rfl, ?_, ?pc, rfl, rfl, ?_, ?_, tileFault n (s.core n), rfl, rfl, State.raises_stops cause addr hp hi⟩
    case pc => show _ = (s.core n).restartPc; simp only [CoreSt.doubleStop, hr]
    all_goals simp only [CoreSt.doubleStop, hr]

end Sys2Proof.Machine
end

section
/-! Operations on banks: which bank BALLOC chooses (R218), what ends an operation on a named bank (R217, R219), and what a
power request stores (R225). -/
namespace Sys2Proof.Machine

-- BALLOC's choice (R218).

/-- A bank that BALLOC may choose: it exists, nobody owns it and it is not locked (R218). -/
def Site.Free (t : Site) (i : Nat) : Prop := i < 32 ∧ (t.bank i).owner = 0 ∧ (t.bank i).lock = false

/-- What `ballocPick` asks of a bank number below 32. -/
def Site.unclaimed (t : Site) (i : Nat) : Bool := (t.bank i).owner == 0 && !(t.bank i).lock

theorem Site.free_iff (t : Site) (i : Nat) : t.Free i ↔ i < 32 ∧ t.unclaimed i = true := by
  simp [Site.Free, Site.unclaimed]

/-- `ballocPick` searches the banks twice from 0 up: for a free one that is ON, then for a free one in any state. -/
theorem ballocPick_eq (t : Site) : ballocPick t =
    ((List.range 32).find? fun i => t.unclaimed i && (t.bank i).isOn).or ((List.range 32).find? t.unclaimed) := by
  have h : ballocPick t = match ((List.range 32).filter t.unclaimed).find? fun i => (t.bank i).isOn with
    | some i => some i
    | none => ((List.range 32).filter t.unclaimed).head? := rfl
  rw [h]
  simp only [List.find?_filter, List.head?_filter, Bool.decide_and, Bool.decide_eq_true]
  split <;> simp [*]

/-- A search from 0 up finds the lowest number with the property. -/
theorem lowest_of_find?_range {p : Nat → Bool} {n i : Nat} (h : (List.range n).find? p = some i) :
    (i < n ∧ p i = true) ∧ ∀ j, p j = true → i ≤ j := by
  obtain ⟨hp, hi, hlow⟩ := List.find?_range_eq_some.1 h
  refine ⟨⟨List.mem_range.1 hi, hp⟩, fun j hj => Nat.le_of_not_lt fun hlt => ?_⟩
  simpa [hj] using hlow j hlt

/-- The bank that BALLOC chooses is the lowest free one that is ON or, where no free bank is ON, the lowest free one. -/
theorem ballocPick_some {t : Site} {i : Nat} (h : ballocPick t = some i) : t.Free i ∧
    ((t.bank i).isOn = true ∧ (∀ j, t.Free j → (t.bank j).isOn = true → i ≤ j) ∨
      (∀ j, t.Free j → (t.bank j).isOn = false ∧ i ≤ j)) := by
  simp only [Site.free_iff]
  rw [ballocPick_eq, Option.or_eq_some_iff] at h
  rcases h with hon | ⟨hnone, hany⟩
  · obtain ⟨⟨hi, hp⟩, hlow⟩ := lowest_of_find?_range hon
    obtain ⟨hfree, hion⟩ := Bool.and_eq_true_iff.1 hp
    exact ⟨⟨hi, hfree⟩, .inl ⟨hion, fun j hj hjon => hlow j (Bool.and_eq_true_iff.2 ⟨hj.2, hjon⟩)⟩⟩
  · obtain ⟨hi, hlow⟩ := lowest_of_find?_range hany
    refine ⟨hi, .inr fun j hj => ⟨?_, hlow j hj.2⟩⟩
    simpa [hj.2] using List.find?_range_eq_none.1 hnone j hj.1

/-- BALLOC finds no bank exactly where none is free. -/
theorem ballocPick_none_iff (t : Site) : ballocPick t = none ↔ ∀ i, ¬ t.Free i := by
  rw [ballocPick_eq, Option.or_eq_none_iff, List.find?_range_eq_none, List.find?_range_eq_none]
  simp only [Site.free_iff, not_and, Bool.not_eq_true, Bool.not_eq_true']
  exact ⟨And.right, fun h => ⟨fun i hi => by simp [h i hi], h⟩⟩

-- Failures and power requests (R217, R219, R225).

theorem ownerCode_iff (v : Nat) : ownerCode v = true ↔ 1 ≤ v ∧ v ≤ 6 := by simp [ownerCode]

theorem ownerCode_eq_false_iff (v : Nat) : ownerCode v = false ↔ v = 0 ∨ 6 < v := by
  rw [← Bool.not_eq_true, ownerCode_iff]
  omega

theorem guestCode_iff (v : Nat) : guestCode v = true ↔ v = 0 ∨ v = 5 ∨ v = 6 := by simp [guestCode, or_assoc]

/-- The power state in which a request for ON leaves a bank (R225). -/
def Pwr.askedOn : Pwr → Pwr
  | .on => .on
  | .retain => .wakingRetain
  | .off => .wakingOff
  | .wakingRetain => .wakingRetain
  | .wakingOff => .wakingOff

/-- ON is never refused (R225). -/
theorem Bank.request_on (k : Bank) : k.request 2 = some { k with pwr := k.pwr.askedOn, target := 2 } := by
  obtain ⟨owner, guest, lock, pwr, target⟩ := k
  cases pwr <;> rfl

/-- A lock changes nothing in what a unit may use (R219). -/
theorem Site.serves_setBank_lock (t : Site) (i unit m : Nat) (l : Bool) :
    (t.setBank i { t.bank i with lock := l }).serves unit m = t.serves unit m := by
  by_cases h : m = i
  · subst h
    simp only [Site.serves, Site.setBank, Site.bank, Tab.get_set_same]
    rfl
  · simp only [Site.serves, Site.setBank, Site.bank, Tab.get_set_other _ _ _ h]

/-- A request that abandons no wake stores the bank that it makes; unless that bank is OFF, memory stays. -/
theorem applyPower_of_request {e : Env} {s n tgt : Nat} {b : Body} {k : Bank}
    (hk : ((b.site s).bank n).request tgt = some k) (hw : ((b.site s).bank n).waking = false) (hp : k.pwr ≠ .off) :
    applyPower e s n tgt b = b.modSite s fun t => t.setBank n k := by
  simp [applyPower, storeBank, hk, hw, hp]

section
variable {site i : Nat} {job bad : Bool} {f : Bank → Bank} {b : Body}

/-- A bad operand comes first: −2. -/
theorem onBank_bad (h : 31 < i ∨ bad = true) : onBank site i job bad f b = (-2, b) := by
  simp [onBank, bankFail, h]

/-- At JOB a lock forbids the operation: −3. -/
theorem onBank_locked (hi : i ≤ 31) (hbad : bad = false) (hjob : job = true) (hlock : ((b.site site).bank i).lock = true) :
    onBank site i job bad f b = (-3, b) := by
  simp [onBank, bankFail, Nat.not_lt.2 hi, hbad, hjob, hlock]

/-- Otherwise the bank changes. -/
theorem onBank_done (hi : i ≤ 31) (hbad : bad = false) (hfree : job = false ∨ ((b.site site).bank i).lock = false) :
    onBank site i job bad f b = (0, b.modSite site fun t => t.setBank i (f ((b.site site).bank i))) := by
  have hlock : (job && ((b.site site).bank i).lock) = false := by rcases hfree with h | h <;> simp [h]
  simp [onBank, bankFail, Nat.not_lt.2 hi, hbad, hlock]

end

-- The operations that are more than `onBank`, on a body.

/-- BGUEST's bad operands: a code that may not be guest, and the owner's code (R214, R217). -/
def guestBad (n x y : Nat) (b : Body) : Bool := !guestCode y || (y != 0 && ((b.site n).bank x).owner == y)

theorem guestBad_of_bad {n x y : Nat} {b : Body} (h : y ≠ 0 ∧ (((b.site n).bank x).owner = y ∨ (y ≠ 5 ∧ y ≠ 6))) :
    guestBad n x y b = true := by
  obtain ⟨h0, howner | ⟨h5, h6⟩⟩ := h
  · simp [guestBad, h0, howner]
  · simp [guestBad, guestCode, h0, h5, h6]

theorem guestBad_of_good {n x y : Nat} {b : Body} (hcode : y = 0 ∨ y = 5 ∨ y = 6)
    (howner : y = 0 ∨ ((b.site n).bank x).owner ≠ y) : guestBad n x y b = false := by
  have hmine : (y != 0 && ((b.site n).bank x).owner == y) = false := by rcases howner with h | h <;> simp [h]
  rw [guestBad, (guestCode_iff y).2 hcode, hmine]
  rfl

/-- BALLOC on a body (R217, R218). -/
def ballocOp (n x y : Nat) (b : Body) : Int × Body :=
  if !ownerCode x || y != 0 then (-2, b)
  else match ballocPick (b.site n) with
    | none => (-1, b)
    | some i =>
      let k := { (b.site n).bank i with owner := x, guest := 0 }
      (i, b.modSite n fun t => t.setBank i ((k.request 2).getD k))

theorem ballocOp_bad {n x y : Nat} {b : Body} (h : x = 0 ∨ 6 < x ∨ y ≠ 0) : ballocOp n x y b = (-2, b) := by
  have hbad : (!ownerCode x || y != 0) = true := by simpa [ownerCode_eq_false_iff, or_assoc] using h
  rw [ballocOp, if_pos hbad]

theorem ballocOp_none {n x y : Nat} {b : Body} (hx : 1 ≤ x) (hx6 : x ≤ 6) (hy : y = 0)
    (hpick : ballocPick (b.site n) = none) : ballocOp n x y b = (-1, b) := by
  simp [ballocOp, (ownerCode_iff x).2 ⟨hx, hx6⟩, hy, hpick]

theorem ballocOp_some {n x y i : Nat} {b : Body} (hx : 1 ≤ x) (hx6 : x ≤ 6) (hy : y = 0)
    (hpick : ballocPick (b.site n) = some i) : ballocOp n x y b = ((i : Int), b.modSite n fun t => t.setBank i
      { (b.site n).bank i with owner := x, guest := 0, pwr := ((b.site n).bank i).pwr.askedOn, target := 2 }) := by
  simp [ballocOp, (ownerCode_iff x).2 ⟨hx, hx6⟩, hy, hpick, Bank.request_on]

/-- BLOCK on a body (R217, R219). -/
def blockOp (n x y : Nat) (job : Bool) (b : Body) : Int × Body :=
  if !(31 < x || 1 < y) && job then (-3, b) else onBank n x job (1 < y) (fun k => { k with lock := y == 1 }) b

section
variable {n x y : Nat} {job : Bool} {b : Body}

theorem blockOp_bad (h : 31 < x ∨ 1 < y) : blockOp n x y job b = (-2, b) := by
  have hbad : 31 < x ∨ decide (1 < y) = true := h.imp_right decide_eq_true
  have hrange : ¬ (!(31 < x || 1 < y) && job) = true := by rcases h with h | h <;> simp [h]
  rw [blockOp, if_neg hrange, onBank_bad hbad]

/-- At JOB a core may not execute BLOCK (R219). -/
theorem blockOp_job (hx : x ≤ 31) (hy : y ≤ 1) (hjob : job = true) : blockOp n x y job b = (-3, b) := by
  simp [blockOp, Nat.not_lt.2 hx, Nat.not_lt.2 hy, hjob]

theorem blockOp_super (hx : x ≤ 31) (hy : y ≤ 1) (hjob : job = false) : blockOp n x y job b =
    (0, b.modSite n fun t => t.setBank x { (b.site n).bank x with lock := y == 1 }) := by
  rw [blockOp, if_neg (by simp [hjob]), onBank_done hx (decide_eq_false (Nat.not_lt.2 hy)) (.inl hjob)]

end

/-- BPWR on a body (R217, R225): a refused transition is a bad operand. -/
def bpwrOp (e : Env) (n x y : Nat) (job : Bool) (b : Body) : Int × Body :=
  let k := (b.site n).bank x
  match bankFail (31 < x || 2 < y || (k.request y).isNone) (job && k.lock) with
  | some r => (r, b)
  | none => (0, applyPower e n x y b)

section
variable {e : Env} {n x y : Nat} {job : Bool} {b : Body}

theorem bpwrOp_bad (h : 31 < x ∨ 2 < y ∨ ((b.site n).bank x).request y = none) : bpwrOp e n x y job b = (-2, b) := by
  have hbad : (decide (31 < x) || decide (2 < y) || (((b.site n).bank x).request y).isNone) = true := by
    simpa [or_assoc] using h
  simp only [bpwrOp, bankFail, hbad, if_true]

theorem bpwrOp_locked (hx : x ≤ 31) (hy : y ≤ 2) (hreq : ((b.site n).bank x).request y ≠ none) (hjob : job = true)
    (hlock : ((b.site n).bank x).lock = true) : bpwrOp e n x y job b = (-3, b) := by
  simp [bpwrOp, bankFail, Nat.not_lt.2 hx, Nat.not_lt.2 hy, hreq, hjob, hlock]

theorem bpwrOp_done (hx : x ≤ 31) (hy : y ≤ 2) (hreq : ((b.site n).bank x).request y ≠ none)
    (hmay : job = false ∨ ((b.site n).bank x).lock = false) : bpwrOp e n x y job b = (0, applyPower e n x y b) := by
  have hlock : (job && ((b.site n).bank x).lock) = false := by rcases hmay with h | h <;> simp [h]
  simp [bpwrOp, bankFail, Nat.not_lt.2 hx, Nat.not_lt.2 hy, hreq, hlock]

end

end Sys2Proof.Machine
end

section
/-! The six BANK instructions of a core that executes them to their end (R217 to R220). -/
namespace Sys2Proof.Machine

/-- A BANK instruction of a core ends with a result, which goes to rd, and a body. -/
def State.bankEnds (s : State) (n : Nat) (rd : RegNo) (r : Int × Body) : State :=
  (s.withBody r.2).writesX n rd (BitVec.ofInt 64 r.1)

/-- A BANK instruction that changes a bank. -/
theorem State.bankEnds_setBank (s : State) (n i : Nat) (rd : RegNo) (r : Int) (k : Bank) :
    s.bankEnds n rd (r, s.body.modSite n fun t => t.setBank i k) =
      (s.onSite n fun t => t.setBank i k).writesX n rd (BitVec.ofInt 64 r) := rfl

/-- What a core writes to a register leaves the banks. -/
@[simp] theorem State.bank_writesX (s : State) (n : Nat) (rd : RegNo) (v : Word64) (i : Nat) :
    ((s.writesX n rd v).body.site n).bank i = (s.body.site n).bank i := by
  simp only [State.writesX, State.onCore, State.onSite, State.withBody, Body.site_modSite]
  rfl

/-- A bank stored is read back. -/
@[simp] theorem State.bank_onSite_setBank (s : State) (n i : Nat) (k : Bank) :
    ((s.onSite n fun t => t.setBank i k).body.site n).bank i = k := by
  simp only [State.onSite, State.withBody, Body.site_modSite, Site.bank, Site.setBank, Tab.get_set_same]

/-- The row of a BANK instruction: its operation on the values of rs1 and rs2, and on whether the core is at JOB. -/
theorem exec_bankRow {s : State} {c : Instr} {n func : Nat} {rd rs1 rs2 : RegNo}
    {op : Env → Nat → Nat → Bool → Body → Int × Body}
    (row : exec c s = bodyStep (fun e b => bankRow func n rd rs1 rs2 (op e) e b) s) (h : s.coreRuns n = true) :
    exec c s = .next (s.bankEnds n rd
      (op s.env ((s.core n).getX rs1).toNat ((s.core n).getX rs2).toNat (!(s.core n).priv) s.body)) := by
  rw [row, bodyStep_eq, bankRow, coreGo_runs h rfl]
  simp only [finish, Body.modSite_modSite]
  rfl

section
variable {s : State} {n : Nat} {rd rs1 rs2 : RegNo}

theorem exec_balloc (h : s.coreRuns n = true) : exec (.balloc n rd rs1 rs2) s = .next (s.bankEnds n rd
    (ballocOp n ((s.core n).getX rs1).toNat ((s.core n).getX rs2).toNat s.body)) :=
  exec_bankRow (op := fun _ x y _ => ballocOp n x y) rfl h

theorem exec_bfree (h : s.coreRuns n = true) : exec (.bfree n rd rs1 rs2) s = .next (s.bankEnds n rd
    (onBank n ((s.core n).getX rs1).toNat (!(s.core n).priv) (((s.core n).getX rs2).toNat != 0)
      (fun k => { k with owner := 0, guest := 0 }) s.body)) :=
  exec_bankRow (op := fun _ x y job => onBank n x job (y != 0) fun k => { k with owner := 0, guest := 0 }) rfl h

theorem exec_bhand (h : s.coreRuns n = true) : exec (.bhand n rd rs1 rs2) s = .next (s.bankEnds n rd
    (onBank n ((s.core n).getX rs1).toNat (!(s.core n).priv) (!ownerCode ((s.core n).getX rs2).toNat)
      (fun k => { k with
        owner := ((s.core n).getX rs2).toNat
        guest := if k.guest = ((s.core n).getX rs2).toNat then 0 else k.guest }) s.body)) :=
  exec_bankRow (op := fun _ x y job => onBank n x job (!ownerCode y)
    fun k => { k with owner := y, guest := if k.guest = y then 0 else k.guest }) rfl h

theorem exec_bguest (h : s.coreRuns n = true) : exec (.bguest n rd rs1 rs2) s = .next (s.bankEnds n rd
    (onBank n ((s.core n).getX rs1).toNat (!(s.core n).priv)
      (guestBad n ((s.core n).getX rs1).toNat ((s.core n).getX rs2).toNat s.body)
      (fun k => { k with guest := ((s.core n).getX rs2).toNat }) s.body)) :=
  exec_bankRow (op := fun _ x y job b => onBank n x job (guestBad n x y b) (fun k => { k with guest := y }) b) rfl h

theorem exec_block (h : s.coreRuns n = true) : exec (.block n rd rs1 rs2) s = .next (s.bankEnds n rd
    (blockOp n ((s.core n).getX rs1).toNat ((s.core n).getX rs2).toNat (!(s.core n).priv) s.body)) :=
  exec_bankRow (op := fun _ => blockOp n) rfl h

theorem exec_bpwr (h : s.coreRuns n = true) : exec (.bpwr n rd rs1 rs2) s = .next (s.bankEnds n rd
    (bpwrOp s.env n ((s.core n).getX rs1).toNat ((s.core n).getX rs2).toNat (!(s.core n).priv) s.body)) :=
  exec_bankRow (op := fun e => bpwrOp e n) rfl h

end

/-- Settles O26: the choice is a search from bank 0 up, and the bank that it finds takes a request for ON. -/
theorem ballocPicksLowest : Obligations.BallocPicksLowest := by
  intro t
  refine ⟨fun i hi => ballocPick_some hi, ballocPick_none_iff t, fun s n rd rs1 rs2 i hrun ht hx hx6 hy hi => ?_⟩
  subst ht
  refine ⟨_, exec_balloc hrun, ?_⟩
  rw [ballocOp_some hx hx6 (by simp [hy]) hi]
  simp only [State.bankEnds_setBank, State.bank_writesX, State.bank_onSite_setBank]
  refine ⟨trivial, ?_⟩
  cases ((s.body.site n).bank i).pwr <;> rfl

/-- Settles O25: every operation on a named bank ends as `onBank` does, BALLOC as its choice does, and BPWR in R225. -/
theorem bankInstructions : Obligations.BankInstructions := by
  intro s n rd rs1 rs2 hrun x y job k fails sets
  refine ⟨fun hx hx6 hy hpick => ?ballocNone, fun i hx hx6 hy hpick => ?ballocSome, fun hbad => ?ballocBad,
    fun hbad => ?bfreeBad, fun hx hy hjob hlock => ?bfreeLocked, fun hx hy hmay => ?bfreeDone,
    fun hbad => ?bhandBad, fun hx hy hy6 hjob hlock => ?bhandLocked, fun hx hy hy6 hmay => ?bhandDone,
    fun hx hcode howner hmay => ?bguestDone, fun hbad => ?bguestBad, fun hx hcode howner hjob hlock => ?bguestLocked,
    fun hx hy hjob => ?blockJob, fun hx hy hjob => ?blockDone, fun hbad => ?blockBad,
    fun hbad => ?bpwrBad, fun hx hy hreq hjob hlock => ?bpwrLocked,
    Site.serves_setBank_lock, fun k' hx hy hreq hmay hwake hoff => ?bpwrStored, fun hx hy hreq hmay => ?bpwrDone⟩
  case ballocNone => rw [exec_balloc hrun, ballocOp_none hx hx6 hy hpick]; rfl
  case ballocSome =>
    rw [exec_balloc hrun, ballocOp_some hx hx6 hy hpick]
    simp only [State.bankEnds_setBank, Bank.request_on, Option.getD_some, sets]
  case ballocBad => rw [exec_balloc hrun, ballocOp_bad hbad]; rfl
  case bfreeBad => rw [exec_bfree hrun, onBank_bad (hbad.imp_right bne_iff_ne.2)]; rfl
  case bfreeLocked => rw [exec_bfree hrun, onBank_locked hx (bne_eq_false_iff_eq.2 hy) hjob hlock]; rfl
  case bfreeDone => rw [exec_bfree hrun, onBank_done hx (bne_eq_false_iff_eq.2 hy) hmay]; rfl
  case bhandBad =>
    rw [exec_bhand hrun, onBank_bad (hbad.imp_right fun h => by rw [(ownerCode_eq_false_iff y).2 h]; rfl)]; rfl
  case bhandLocked =>
    rw [exec_bhand hrun, onBank_locked hx (by rw [(ownerCode_iff y).2 ⟨hy, hy6⟩]; rfl) hjob hlock]; rfl
  case bhandDone =>
    rw [exec_bhand hrun, onBank_done hx (by rw [(ownerCode_iff y).2 ⟨hy, hy6⟩]; rfl) hmay]; rfl
  case bguestDone => rw [exec_bguest hrun, onBank_done hx (guestBad_of_good hcode howner) hmay]; rfl
  case bguestBad => rw [exec_bguest hrun, onBank_bad (hbad.imp_right guestBad_of_bad)]; rfl
  case bguestLocked => rw [exec_bguest hrun, onBank_locked hx (guestBad_of_good hcode howner) hjob hlock]; rfl
  case blockJob => rw [exec_block hrun, blockOp_job hx hy hjob]; rfl
  case blockDone => rw [exec_block hrun, blockOp_super hx hy hjob]; rfl
  case blockBad => rw [exec_block hrun, blockOp_bad hbad]; rfl
  case bpwrBad => rw [exec_bpwr hrun, bpwrOp_bad hbad]; rfl
  case bpwrLocked => rw [exec_bpwr hrun, bpwrOp_locked hx hy hreq hjob hlock]; rfl
  case bpwrStored =>
    have hne : k.request y ≠ none := by simp [hreq]
    rw [exec_bpwr hrun, bpwrOp_done hx hy hne hmay, applyPower_of_request hreq hwake hoff]; rfl
  case bpwrDone => rw [exec_bpwr hrun, bpwrOp_done hx hy hreq hmay]; rfl

end Sys2Proof.Machine
end
